-- ==== Sys2Proof/Word.lean ====
section
/-! DEFINITION. The word types of the core: bytes, and the sizes of the two frames (00_scope.md R9). -/

namespace Sys2Proof

/-- An unsigned byte, `u8` of 00_scope.md R261. -/
abbrev Byte := BitVec 8

/-- The RequestFrame, 9 bytes (10_state.md R11, 30_encoding.md R68). -/
abbrev RequestFrame := Vector Byte 9

/-- The ReplyFrame, 15 bytes (10_state.md R12, 30_encoding.md R69). -/
abbrev ReplyFrame := Vector Byte 15

/-- A payload of the mode table, 12 bytes (00_scope.md R9 `PAYLOAD_LEN`). -/
abbrev Payload := Vector Byte 12

/-- The 14 bytes a checksum is computed over (40_frame_codec.md R95). -/
abbrev Checked := Vector Byte 14

end Sys2Proof
end

