-- ==== Sys2Proof/Config.lean ====
section
/-! DEFINITION. What an implementation fixes (00_scope.md R9, R33) and the values the spec leaves free. -/

namespace Sys2Proof

/-- `VARIANT`: which dispatcher is present, fixed for the life of a device (00_scope.md R3, R9). -/
inductive Variant where
  | aPolled
  | bEvent
deriving DecidableEq, Repr

/-- The OPEN parameters of 00_scope.md R9. A state carries them and no operation writes them, so a
statement about every state is a statement about every value of them (DESIGN CHOICE, log 1). -/
structure Config where
  /-- `VARIANT` -/
  variant       : Variant
  /-- `RXQ_DEPTH` -/
  rxqDepth      : Nat
  /-- `TXQ_DEPTH` -/
  txqDepth      : Nat
  /-- `POLL_THRESHOLD` -/
  pollThreshold : Nat
  /-- `REPLY_RESET` -/
  replyReset    : ReplyFrame
deriving DecidableEq, Repr

/-- The ranges 00_scope.md R9 gives the parameters. -/
abbrev Config.Wf (c : Config) : Prop :=
  9 ≤ c.rxqDepth ∧ 1 ≤ c.txqDepth ∧ 1 ≤ c.pollThreshold ∧ c.pollThreshold ≤ 9

/-- The values `State.reset` takes: the suggested ones of 00_scope.md R9, and variant B
(DESIGN CHOICE, log 1). -/
def Config.suggested : Config where
  variant       := .bEvent
  rxqDepth      := 16
  txqDepth      := 16
  pollThreshold := 9
  replyReset    := #v[0, 0, 0, 0, 0, 0, 0, 0, 0, 0, 0, 0, 0, 0, 0]

/-- `TX_OVERFLOW_BYTE`, a fresh draw at each ReplyOverflow (10_state.md R33, 42_transaction_tracker.md R127). -/
opaque Config.txOverflowByte : Nat → BitVec 8

/-- `req` after `RESET`: unspecified (10_state.md R11, 70_reset_and_hazards.md R236). -/
opaque Config.reqAfterReset : Nat → Vector (BitVec 8) 9

/-- `sr` after `RESET`: unspecified (10_state.md R23). -/
opaque Config.srAfterReset : Nat → BitVec 8

/-- `rw` after `RESET`: unspecified (10_state.md R24). -/
opaque Config.rwAfterReset : Nat → Bool

/-- `nack` after `RESET`: unspecified (10_state.md R26). -/
opaque Config.nackAfterReset : Nat → Bool

end Sys2Proof
end

