-- ==== Sys2Proof/Syntax.lean ====
section
/-! DEFINITION. The operations of the core (30_encoding.md R63): one constructor per row of
spec/opcode_table.json, and the encoded form in which an input reaches the machine. -/

namespace Sys2Proof

/-- The operations. A mnemonic with several rows has a constructor for each, named by the row's code. -/
inductive Instr where
  -- format AB, the address byte (30_encoding.md R66, R67)
  | addrW
  | addrR
  | addrOther (addr : BitVec 7) (rw : Bool)
  -- format RQ0, request byte 0 (30_encoding.md R70)
  | modeNormal
  | modeIdentify
  | modeChallenge
  | modeSerial
  | modeFallback (m : Byte)
  -- format EW, the event word (30_encoding.md R73 to R78)
  | evStart
  | evStop
  | evByteRx (d : Byte) (first : Bool)
  | evByteReq
  | ewReservedStart (low : BitVec 9)
  | ewReservedStop (low : BitVec 9)
  | ewReservedReq (low : BitVec 9)
  -- format LC, the line code (30_encoding.md R79 to R81), one row per code
  | lcNop0000
  | lcNop0001
  | lcRise0010
  | lcReserved0011
  | lcNop0100
  | lcNop0101
  | lcReserved0110
  | lcRise0111
  | lcFall1000
  | lcReserved1001
  | lcNop1010
  | lcStop
  | lcReserved1100
  | lcFall1101
  | lcStart
  | lcNop1111
  -- format SQ, the sequencer code (30_encoding.md R84)
  | sqPoll
  | sqRead (k : Fin 9)
  | sqCompose
  | sqWrite (k : Fin 15)
  -- format FN, internal functions without an encoding (30_encoding.md R64)
  | compose
  | lookup (m : Byte)
  | buildReply (payload : Payload) (modeEcho : Byte)
  | seqStamp (f : ReplyFrame)
  | checksum (b : Checked)
  | sample (sclC sdaC : Bool)
  -- format CTL, control inputs that are on no bus (30_encoding.md R64)
  | beResume
  | reset
deriving DecidableEq, Repr

/-- The formats that select an operation (30_encoding.md R64). -/
inductive Format where
  | ab | rq0 | ew | lc | sq | fn | ctl
deriving DecidableEq, Repr

/-- One input of the machine: a word of a format, as bytes, the low eight bits first. For `fn` and `ctl`,
which the spec gives no encoding, the first byte is the model's own number of the operation and the
operands follow (DESIGN CHOICE, log 6). -/
structure Packet where
  fmt   : Format
  bytes : List Byte
deriving DecidableEq, Repr

/-- Why a packet is no operation. -/
inductive DecodeError where
  /-- The packet has another number of bytes than its format has. Safe. -/
  | wrongLength
  /-- A bit above the format's width is set. Safe. -/
  | bitsAboveWidth
  /-- A sequencer code that is reserved and never reached (30_encoding.md R84). Safe. -/
  | reservedSequencerCode
  /-- A number of the formats `fn` or `ctl` that names no operation (log 6). Safe. -/
  | unknownOperation
deriving DecidableEq, Repr

end Sys2Proof
end

