-- ==== Sys2Proof/Machine/State.lean ====
section
/-! DEFINITION. The state of the core (10_state.md), its faults and refusals, and the state after reset. -/

namespace Sys2Proof.Machine

/-- The label of the Transaction Tracker (10_state.md R16). -/
inductive Phase where
  | idle | receiving | replying
deriving DecidableEq, Repr

/-- The state of the byte engine, `BE_IDLE`, `BE_ADDR`, `BE_RX`, `BE_TX`, `BE_WAIT` (10_state.md R21). -/
inductive EngineState where
  | idle | addr | rx | tx | wait
deriving DecidableEq, Repr

/-- `HOLD_NONE`, `HOLD_RXQ_FULL`, `HOLD_TXQ_EMPTY`, `HOLD_RELEASE` (10_state.md R32). -/
inductive Hold where
  | none | rxqFull | txqEmpty | release
deriving DecidableEq, Repr

/-- The state of variant A's sequencer (10_state.md R29). -/
inductive SeqState where
  | poll
  | read (k : Fin 9)
  | compose
  | write (k : Fin 15)
deriving DecidableEq, Repr

/-- What the samples so far demand of the next one, for an input inside the line rules (44_byte_engine.md
R200, 70_reset_and_hazards.md R238). The model's own, log 16. -/
inductive Expect where
  /-- both lines high, at the first sample after `RESET` (R238) -/
  | idleBus
  /-- SCL kept low, at the sample after one in which SCL fell (R200 W2) -/
  | sclLow
  /-- SCL kept released and SDA as it was driven, while the device holds SCL low (R200 W5) -/
  | kept (sda : Bool)
  | anything
deriving DecidableEq, Repr

/-- The two error conditions (60_exceptions.md R206). -/
inductive Condition where
  | requestOverflow
  | replyOverflow
deriving DecidableEq, Repr

/-- The byte-addressed spaces that hold bytes (20_memory.md R41). -/
inductive Space where
  | req | rep | rom
deriving DecidableEq, Repr

/-- What a value-returning operation returned when it was run by itself (the model's own port, log 10). -/
inductive Returned where
  | nothing
  | byte (b : Byte)
  | selected (payload : Payload) (modeId : Byte)
  | frame (f : ReplyFrame)
deriving DecidableEq, Repr

/-- The reasons a step can fault. -/
inductive Fault where
  /-- An access to a byte the space does not have (20_memory.md R41), or a write to `ROM` (20_memory.md R44).
  Raised by `memRead`, `memWrite` and, through the receive cursor, by `EV_BYTE_RX` and the steps that
  deliver a byte, only when the cursor is in 10..15, which no run reaches (10_state.md R34). Safe. -/
  | noSuchAddress (space : Space) (index : Nat)
deriving DecidableEq, Repr

/-- The reasons a step can be refused. -/
inductive Refusal where
  /-- Raised by an arm of `exec` whose operation has no meaning yet. Safe. -/
  | notModelled (mnemonic : String)
  /-- Raised by `step` for an input that decodes to no operation. Safe. -/
  | undecodable (why : DecodeError)
  /-- Raised by `EW_RESERVED`: a model that takes event words refuses it (30_encoding.md R78). Safe. -/
  | reservedEventWord
  /-- Raised by `LC_RESERVED`, and by `SAMPLE` when both lines change (30_encoding.md R81, 44_byte_engine.md
  R200 W1). Safe. -/
  | reservedLineCode
  /-- Raised by `SAMPLE` when the controller lets SCL go in the sample after SCL fell (44_byte_engine.md R200
  W2, log 16). Safe. -/
  | sclNotKeptLow
  /-- Raised by `SAMPLE` when another party drives SDA low in an acknowledge or data clock that is the
  device's (44_byte_engine.md R200 W4, W6, log 16). Safe. -/
  | sdaNotReleased
  /-- Raised by `SAMPLE` when the controller goes on while the device holds SCL low (44_byte_engine.md R200
  W5, log 16). Safe. -/
  | holdNotHonoured
  /-- Raised by the first `SAMPLE` after `RESET` when the bus is not idle (70_reset_and_hazards.md R238,
  93_implementation_defined.md U15, log 16). Safe. -/
  | busNotIdleAfterReset
  /-- Raised by the four events in variant A, where they do not exist (42_transaction_tracker.md R140,
  log 12). Safe. -/
  | absentInVariantA
  /-- Raised by the sequencer's operations and `BE_RESUME` in variant B, where the state they act on does
  not exist (10_state.md R40, log 12). Safe. -/
  | absentInVariantB
deriving DecidableEq, Repr

/-- The state of the machine (10_state.md R39). A line level or a one-bit register is a `Bool`, `true` = 1. -/
structure State where
  /-- the parameters, written by no operation (log 1) -/
  cfg : Config
  -- layer 2 (10_state.md R11 to R19)
  req : RequestFrame
  rep : ReplyFrame
  rxHead : BitVec 4
  txHead : BitVec 4
  frameSeq : Byte
  phase : Phase
  rxOvf : Bool
  txOvf : Bool
  diag : List Condition
  -- the byte engine (10_state.md R21 to R26, R30 to R32)
  be : EngineState
  bitcnt : BitVec 4
  sr : Byte
  rw : Bool
  matched : Bool
  firstPending : Bool
  nack : Bool
  sclQ : Bool
  sdaQ : Bool
  sdaOut : Bool
  sclOut : Bool
  hold : Hold
  -- variant A (10_state.md R27 to R29)
  rxq : List Byte
  txq : List Byte
  seqState : SeqState
  -- the model's own
  /-- how many free values have been drawn (logs 3, 4) -/
  draws : Nat
  /-- what the samples so far demand of the next one (log 16) -/
  expect : Expect
  /-- what the last value-returning operation returned (log 10) -/
  ret : Returned
  /-- the inputs to come, in order (log 5) -/
  input : List Packet
deriving DecidableEq, Repr

/-- The machine right after reset (10_state.md R39, 70_reset_and_hazards.md R236, R237), with the parameters
of `Config.suggested` (log 1). `req`, `sr`, `rw`, `nack`, which the spec leaves unspecified, are zero
(DESIGN CHOICE, log 2). -/
def State.reset : State where
  cfg := Config.suggested
  req := #v[0, 0, 0, 0, 0, 0, 0, 0, 0]
  rep := Config.suggested.replyReset
  rxHead := 0
  txHead := 0
  frameSeq := 0
  phase := .idle
  rxOvf := false
  txOvf := false
  diag := []
  be := .idle
  bitcnt := 0
  sr := 0
  rw := false
  matched := false
  firstPending := false
  nack := false
  sclQ := true
  sdaQ := true
  sdaOut := true
  sclOut := true
  hold := .none
  rxq := []
  txq := []
  seqState := .poll
  draws := 0
  expect := .idleBus
  ret := .nothing
  input := []

end Sys2Proof.Machine
end

