-- ==== Sys2Proof/Machine/Flags.lean ====
section
/-! DEFINITION. The sticky flags and the diagnostic codes of the two error conditions (60_exceptions.md
R206). No other operation of the core writes a flag. -/

namespace Sys2Proof.Machine

/-- 1 = RequestOverflow, 2 = ReplyOverflow (60_exceptions.md R206). -/
def conditionCode : Condition → Nat
  | .requestOverflow => 1
  | .replyOverflow => 2

/-- Sets the sticky flag of a condition; only `RESET` clears it (10_state.md R17, R18). -/
def setStickyFlag (c : Condition) (s : State) : State :=
  match c with
  | .requestOverflow => { s with rxOvf := true }
  | .replyOverflow => { s with txOvf := true }

/-- The output history as the diagnostic sink sees it (10_state.md R19). -/
def diagCodes (s : State) : List Nat := s.diag.map conditionCode

end Sys2Proof.Machine
end

