-- ==== Sys2Proof/WellFormed.lean ====
section
/-! DEFINITION. Which operands the encodings admit. The ranges of `k` are in the type of `Instr`
(93_implementation_defined.md U8); what is left are the fallback rows, which yield to the exact rows
(30_encoding.md R85). -/

namespace Sys2Proof

/-- An operation that some word encodes (30_encoding.md R67, R70, R78). -/
def Instr.wellFormed : Instr → Bool
  -- the 254 address bytes other than 0x08 and 0x09
  | .addrOther addr _ => addr != 4
  -- the 252 request bytes other than 1, 3, 4, 5
  | .modeFallback m => m != 1 && m != 3 && m != 4 && m != 5
  -- kind 0, 1, 3 with a non-zero `first` or `data` field
  | .ewReservedStart low => low != 0
  | .ewReservedStop low => low != 0
  | .ewReservedReq low => low != 0
  | .addrW | .addrR => true
  | .modeNormal | .modeIdentify | .modeChallenge | .modeSerial => true
  | .evStart | .evStop | .evByteRx _ _ | .evByteReq => true
  | .lcNop0000 | .lcNop0001 | .lcRise0010 | .lcReserved0011 => true
  | .lcNop0100 | .lcNop0101 | .lcReserved0110 | .lcRise0111 => true
  | .lcFall1000 | .lcReserved1001 | .lcNop1010 | .lcStop => true
  | .lcReserved1100 | .lcFall1101 | .lcStart | .lcNop1111 => true
  | .sqPoll | .sqRead _ | .sqCompose | .sqWrite _ => true
  | .compose | .lookup _ | .buildReply _ _ | .seqStamp _ | .checksum _ | .sample _ _ => true
  | .beResume | .reset => true

end Sys2Proof
end

