-- ==== Sys2Proof/Decode.lean ====
section
/-! DEFINITION. Decoding of each format (30_encoding.md R66 to R84), of packets, and of the host's table
words; then the encoder, from the same tables. -/

namespace Sys2Proof

/-- `SLAVE_ADDR`, the one bus address the device answers (20_memory.md R45). -/
def slaveAddr : BitVec 7 := 0b0000100

/-- Format AB: `addr` = bits 7:1, `rw` = bit 0; one matching address (30_encoding.md R66, R67). -/
def decodeAB (b : Byte) : Instr :=
  if b.extractLsb' 1 7 = slaveAddr then
    if b.getLsbD 0 then .addrR else .addrW
  else .addrOther (b.extractLsb' 1 7) (b.getLsbD 0)

/-- Format RQ0: exact matches first, then the fallback (30_encoding.md R70). -/
def decodeRQ0 (m : Byte) : Instr :=
  if m = 0x01 then .modeNormal
  else if m = 0x03 then .modeIdentify
  else if m = 0x04 then .modeChallenge
  else if m = 0x05 then .modeSerial
  else .modeFallback m

/-- Format EW: `kind` = bits 10:9, `first` = bit 8, `data` = bits 7:0 (30_encoding.md R73 to R78). -/
def decodeEW (w : BitVec 11) : Instr :=
  let low : BitVec 9 := w.extractLsb' 0 9
  match w.getLsbD 10, w.getLsbD 9 with
  | false, false => if low = 0 then .evStart else .ewReservedStart low
  | false, true  => if low = 0 then .evStop else .ewReservedStop low
  | true,  false => .evByteRx (w.extractLsb' 0 8) (w.getLsbD 8)
  | true,  true  => if low = 0 then .evByteReq else .ewReservedReq low

/-- Format LC: bit 3 = previous SCL, bit 2 = previous SDA, bit 1 = current SCL, bit 0 = current SDA
(30_encoding.md R79, R80). -/
def decodeLC (c : BitVec 4) : Instr :=
  match c.getLsbD 3, c.getLsbD 2, c.getLsbD 1, c.getLsbD 0 with
  | false, false, false, false => .lcNop0000
  | false, false, false, true  => .lcNop0001
  | false, false, true,  false => .lcRise0010
  | false, false, true,  true  => .lcReserved0011
  | false, true,  false, false => .lcNop0100
  | false, true,  false, true  => .lcNop0101
  | false, true,  true,  false => .lcReserved0110
  | false, true,  true,  true  => .lcRise0111
  | true,  false, false, false => .lcFall1000
  | true,  false, false, true  => .lcReserved1001
  | true,  false, true,  false => .lcNop1010
  | true,  false, true,  true  => .lcStop
  | true,  true,  false, false => .lcReserved1100
  | true,  true,  false, true  => .lcFall1101
  | true,  true,  true,  false => .lcStart
  | true,  true,  true,  true  => .lcNop1111

/-- Format SQ: `op` = bits 5:4, `k` = bits 3:0; the codes with `k` out of range are reserved
(30_encoding.md R84). -/
def decodeSQ (c : BitVec 6) : Option Instr :=
  let k := (c.extractLsb' 0 4).toNat
  match c.getLsbD 5, c.getLsbD 4 with
  | false, false => if k = 0 then some .sqPoll else none
  | false, true  => if h : k < 9 then some (.sqRead ⟨k, h⟩) else none
  | true,  false => if k = 0 then some .sqCompose else none
  | true,  true  => if h : k < 15 then some (.sqWrite ⟨k, h⟩) else none

/-- A list of exactly `n` bytes as a vector. -/
def bytesVec? (n : Nat) (l : List Byte) : Option (Vector Byte n) :=
  if h : l.length = n then some ⟨l.toArray, by simp [h]⟩ else none

/-- Format FN: the model's own numbers for the functions the spec gives no encoding, and their operands
(DESIGN CHOICE, log 6). -/
def decodeFN (op : Byte) (args : List Byte) : Except DecodeError Instr :=
  match op.toNat with
  | 0 => match args with
    | [] => .ok .compose
    | _ => .error .wrongLength
  | 1 => match args with
    | [m] => .ok (.lookup m)
    | _ => .error .wrongLength
  | 2 => match bytesVec? 12 (args.take 12), args.drop 12 with
    | some p, [e] => .ok (.buildReply p e)
    | _, _ => .error .wrongLength
  | 3 => match bytesVec? 15 args with
    | some f => .ok (.seqStamp f)
    | none => .error .wrongLength
  | 4 => match bytesVec? 14 args with
    | some b => .ok (.checksum b)
    | none => .error .wrongLength
  | 5 => match args with
    | [l] => if l.toNat < 4 then .ok (.sample (l.getLsbD 1) (l.getLsbD 0)) else .error .bitsAboveWidth
    | _ => .error .wrongLength
  | _ => .error .unknownOperation

/-- Format CTL: the model's own numbers (DESIGN CHOICE, log 6). -/
def decodeCTL (op : Byte) : Except DecodeError Instr :=
  match op.toNat with
  | 0 => .ok .beResume
  | 1 => .ok .reset
  | _ => .error .unknownOperation

/-- The decoder: total on any packet, rejecting by name. A word's first byte is its bits 7:0. -/
def decode (p : Packet) : Except DecodeError Instr :=
  match p.fmt with
  | .ab => match p.bytes with
    | [b] => .ok (decodeAB b)
    | _ => .error .wrongLength
  | .rq0 => match p.bytes with
    | [m] => .ok (decodeRQ0 m)
    | _ => .error .wrongLength
  | .ew => match p.bytes with
    | [lo, hi] =>
      if hi.toNat < 8 then .ok (decodeEW (hi.extractLsb' 0 3 ++ lo)) else .error .bitsAboveWidth
    | _ => .error .wrongLength
  | .lc => match p.bytes with
    | [c] => if c.toNat < 16 then .ok (decodeLC (c.extractLsb' 0 4)) else .error .bitsAboveWidth
    | _ => .error .wrongLength
  | .sq => match p.bytes with
    | [c] =>
      if c.toNat < 64 then
        match decodeSQ (c.extractLsb' 0 6) with
        | some i => .ok i
        | none => .error .reservedSequencerCode
      else .error .bitsAboveWidth
    | _ => .error .wrongLength
  | .fn => match p.bytes with
    | op :: args => decodeFN op args
    | [] => .error .wrongLength
  | .ctl => match p.bytes with
    | [op] => decodeCTL op
    | _ => .error .wrongLength

/-- The format of a bare 8-bit table word. Four formats of the table share these numbers, and a bare word
carries no format, so the model picks one for each number, such that every mnemonic keeps a word: the exact
rows of AB and RQ0 and `SQ_POLL` first, then LC, then SQ, then the fallback rows (DESIGN CHOICE, log 7).
The machine itself never needs the choice: its inputs carry their format. -/
def formatOfTableByte (w : Nat) : Format :=
  if w = 8 ∨ w = 9 then .ab
  else if w = 1 ∨ w = 3 ∨ w = 4 ∨ w = 5 then .rq0
  else if w = 0 then .sq
  else if w < 16 then .lc
  else if w < 64 then .sq
  else if w < 128 then .rq0
  else .ab

/-- The packet of a table word of `nbits` bits (a format's own width, or that width in whole bytes). -/
def packetOfTableWord (nbits w : Nat) : Packet :=
  if nbits = 4 then ⟨.lc, [BitVec.ofNat 8 w]⟩
  else if nbits = 6 then ⟨.sq, [BitVec.ofNat 8 w]⟩
  else if nbits = 8 then ⟨formatOfTableByte w, [BitVec.ofNat 8 w]⟩
  else ⟨.ew, [BitVec.ofNat 8 w, BitVec.ofNat 8 (w / 256)]⟩

/-- The instruction the decoder reads from a table word. -/
def decodeTableWord (nbits w : Nat) : Option Instr :=
  match decode (packetOfTableWord nbits w) with
  | .ok i => some i
  | .error _ => none

/-- The word of format AB (30_encoding.md R66). -/
def encodeAB (addr : BitVec 7) (rw : Bool) : Packet := ⟨.ab, [addr ++ BitVec.ofBool rw]⟩

/-- The word of format EW: `kind` over the nine low bits (30_encoding.md R73). -/
def encodeEW (kind : BitVec 2) (low : BitVec 9) : Packet :=
  ⟨.ew, [low.extractLsb' 0 8, (0 : BitVec 5) ++ kind ++ low.extractLsb' 8 1]⟩

/-- The word of format LC (30_encoding.md R80). -/
def encodeLC (c : BitVec 4) : Packet := ⟨.lc, [(0 : BitVec 4) ++ c]⟩

/-- The word of format SQ: `op` over `k` (30_encoding.md R84). -/
def encodeSQ (op : BitVec 2) (k : BitVec 4) : Packet := ⟨.sq, [(0 : BitVec 2) ++ op ++ k]⟩

/-- The encoder: the words of an operation. -/
def encode : Instr → Packet
  | .addrW => encodeAB slaveAddr false
  | .addrR => encodeAB slaveAddr true
  | .addrOther addr rw => encodeAB addr rw
  | .modeNormal => ⟨.rq0, [0x01]⟩
  | .modeIdentify => ⟨.rq0, [0x03]⟩
  | .modeChallenge => ⟨.rq0, [0x04]⟩
  | .modeSerial => ⟨.rq0, [0x05]⟩
  | .modeFallback m => ⟨.rq0, [m]⟩
  | .evStart => encodeEW 0 0
  | .evStop => encodeEW 1 0
  | .evByteRx d first => encodeEW 2 (BitVec.ofBool first ++ d)
  | .evByteReq => encodeEW 3 0
  | .ewReservedStart low => encodeEW 0 low
  | .ewReservedStop low => encodeEW 1 low
  | .ewReservedReq low => encodeEW 3 low
  | .lcNop0000 => encodeLC 0b0000
  | .lcNop0001 => encodeLC 0b0001
  | .lcRise0010 => encodeLC 0b0010
  | .lcReserved0011 => encodeLC 0b0011
  | .lcNop0100 => encodeLC 0b0100
  | .lcNop0101 => encodeLC 0b0101
  | .lcReserved0110 => encodeLC 0b0110
  | .lcRise0111 => encodeLC 0b0111
  | .lcFall1000 => encodeLC 0b1000
  | .lcReserved1001 => encodeLC 0b1001
  | .lcNop1010 => encodeLC 0b1010
  | .lcStop => encodeLC 0b1011
  | .lcReserved1100 => encodeLC 0b1100
  | .lcFall1101 => encodeLC 0b1101
  | .lcStart => encodeLC 0b1110
  | .lcNop1111 => encodeLC 0b1111
  | .sqPoll => encodeSQ 0 0
  | .sqRead k => encodeSQ 1 (BitVec.ofNat 4 k.val)
  | .sqCompose => encodeSQ 2 0
  | .sqWrite k => encodeSQ 3 (BitVec.ofNat 4 k.val)
  | .compose => ⟨.fn, [0]⟩
  | .lookup m => ⟨.fn, [1, m]⟩
  | .buildReply p e => ⟨.fn, 2 :: (p.toList ++ [e])⟩
  | .seqStamp f => ⟨.fn, 3 :: f.toList⟩
  | .checksum b => ⟨.fn, 4 :: b.toList⟩
  | .sample sclC sdaC => ⟨.fn, [5, (0 : BitVec 6) ++ BitVec.ofBool sclC ++ BitVec.ofBool sdaC]⟩
  | .beResume => ⟨.ctl, [0]⟩
  | .reset => ⟨.ctl, [1]⟩

end Sys2Proof
end

