-- ==== Sys2Proof/Machine/Operands.lean ====
section
/-! DEFINITION. Operand forms: line levels and codes, bits of the shift register, the fields of the two
frames, and the codes of the state labels (30_encoding.md). -/

namespace Sys2Proof.Machine

/-- The value of an open-drain line: the AND of all drives (44_byte_engine.md R166). -/
def wiredAnd (a b : Bool) : Bool := a && b

/-- The line code `(scl_q, sda_q, scl, sda)`, bit 3 first (30_encoding.md R79). -/
def lineCode (sclQ sdaQ scl sda : Bool) : BitVec 4 :=
  BitVec.ofBool sclQ ++ BitVec.ofBool sdaQ ++ BitVec.ofBool scl ++ BitVec.ofBool sda

/-- `(sr[6:0], sda)`: the first bit received ends in bit 7 (44_byte_engine.md R177). -/
def shiftIn (sr : Byte) (sda : Bool) : Byte := sr.extractLsb' 0 7 ++ BitVec.ofBool sda

/-- `sr[7 - k]`, the bit driven when `k` bits have been clocked (44_byte_engine.md R191). -/
def bitToSend (sr : Byte) (k : Nat) : Bool := sr.getLsbD (7 - k)

/-- Bits 7:1 of an address byte (30_encoding.md R66). -/
def addrField (b : Byte) : BitVec 7 := b.extractLsb' 1 7

/-- Bit 0 of an address byte: 1 = the controller reads (30_encoding.md R66). -/
def rwField (b : Byte) : Bool := b.getLsbD 0

/-- The addresses of the space `BUS` that the device answers (20_memory.md R45). -/
def answers (addr : BitVec 7) : Bool := addr == slaveAddr

/-- The mode selector of a request (30_encoding.md R68). -/
def modeSelector (r : RequestFrame) : Byte := r[0]

/-- Bytes 0..11 of a reply (30_encoding.md R69). -/
def payloadOf (f : ReplyFrame) : Payload := Vector.ofFn fun i : Fin 12 => f[i.val]

/-- Byte 12 of a reply (30_encoding.md R69). -/
def modeEchoOf (f : ReplyFrame) : Byte := f[12]

/-- Byte 13 of a reply (30_encoding.md R69). -/
def frameSeqOf (f : ReplyFrame) : Byte := f[13]

/-- Byte 14 of a reply (30_encoding.md R69). -/
def checksumByteOf (f : ReplyFrame) : Byte := f[14]

/-- `IDLE` = 0, `RECEIVING` = 1, `REPLYING` = 2 (10_state.md R16). -/
def phaseCode : Phase → BitVec 2
  | .idle => 0
  | .receiving => 1
  | .replying => 2

/-- 0, 1, 2, 3 in the order of 10_state.md R32. -/
def holdCode : Hold → BitVec 2
  | .none => 0
  | .rxqFull => 1
  | .txqEmpty => 2
  | .release => 3

/-- The 6-bit code of a sequencer state, `op` over `k` (30_encoding.md R84). -/
def seqCode : SeqState → BitVec 6
  | .poll => 0x00
  | .read k => 0x10 + BitVec.ofNat 6 k.val
  | .compose => 0x20
  | .write k => 0x30 + BitVec.ofNat 6 k.val

/-- The tracker's label that a sequencer state corresponds to, with its count (10_state.md R29). -/
def seqLabel : SeqState → Phase × Nat
  | .poll => (.idle, 0)
  | .read k => (.receiving, k.val)
  | .compose => (.receiving, 9)
  | .write k => (.replying, k.val)

/-- The count of the tracker's label: `rx_head` in `RECEIVING`, `tx_head` in `REPLYING`
(10_state.md R16, 42_transaction_tracker.md R130). -/
def phaseCount (s : State) : Nat :=
  match s.phase with
  | .idle => 0
  | .receiving => s.rxHead.toNat
  | .replying => s.txHead.toNat

/-- After `SQ_READ(k)`: `(k == 8) ? SQ_COMPOSE : SQ_READ(k+1)` (43_dispatch_variants.md R144). -/
def seqAfterRead (k : Fin 9) : SeqState :=
  if h : k.val < 8 then .read ⟨k.val + 1, by omega⟩ else .compose

/-- After `SQ_WRITE(k)`: `(k == 14) ? SQ_POLL : SQ_WRITE(k+1)` (43_dispatch_variants.md R146). -/
def seqAfterWrite (k : Fin 15) : SeqState :=
  if h : k.val < 14 then .write ⟨k.val + 1, by omega⟩ else .poll

end Sys2Proof.Machine
end

