-- ==== Sys2Proof/Machine/Rom.lean ====
section
/-! DEFINITION. The address space `ROM`: 48 constant bytes and the four mode ids (20_memory.md R44,
41_mode_table.md R105). -/

namespace Sys2Proof.Machine

/-- The four payloads one after another, `sel` 0 Normal, 1 Identify ("Handrad 0001"), 2 Challenge,
3 Serial ("ABCD12345678"). -/
def rom : Vector Byte 48 :=
  #v[0xFF, 0xFF, 0x00, 0x00, 0x00, 0x00, 0x00, 0x00, 0x00, 0x00, 0x00, 0x00,
     0x48, 0x61, 0x6E, 0x64, 0x72, 0x61, 0x64, 0x20, 0x30, 0x30, 0x30, 0x31,
     0x3B, 0x59, 0xE8, 0x2A, 0xE9, 0xB1, 0xBE, 0xD8, 0x00, 0x00, 0x00, 0x00,
     0x41, 0x42, 0x43, 0x44, 0x31, 0x32, 0x33, 0x34, 0x35, 0x36, 0x37, 0x38]

/-- Entry `sel` occupies the bytes `12·sel .. 12·sel + 11` (20_memory.md R44). -/
def romPayload (sel : Fin 4) : Payload :=
  Vector.ofFn fun i : Fin 12 => rom[12 * sel.val + i.val]

/-- The mode ids of the four entries (41_mode_table.md R105, R115). -/
def modeId (sel : Fin 4) : Byte := (#v[1, 3, 4, 5] : Vector Byte 4)[sel.val]

end Sys2Proof.Machine
end

