-- ==== Sys2Proof/Machine/Ops.lean ====
section
/-! DEFINITION. The operations the meanings share: reading and writing a byte of a space, the queues, the
free values, raising an error condition, the observation port, and fetching the next input. -/

namespace Sys2Proof.Machine

/-- `MemRead(space, i, 1)` (00_scope.md R261, 20_memory.md R41). -/
def memRead (space : Space) (i : Nat) (s : State) : Except Fault Byte :=
  match space with
  | .req => if h : i < 9 then .ok s.req[i] else .error (.noSuchAddress .req i)
  | .rep => if h : i < 15 then .ok s.rep[i] else .error (.noSuchAddress .rep i)
  | .rom => if h : i < 48 then .ok rom[i] else .error (.noSuchAddress .rom i)

/-- `MemWrite(space, i, 1, v)`; only `REQ` and `REP` are writable (00_scope.md R261, 20_memory.md R44). -/
def memWrite (space : Space) (i : Nat) (v : Byte) (s : State) : Except Fault State :=
  match space with
  | .req => if h : i < 9 then .ok { s with req := s.req.set i v } else .error (.noSuchAddress .req i)
  | .rep => if h : i < 15 then .ok { s with rep := s.rep.set i v } else .error (.noSuchAddress .rep i)
  | .rom => .error (.noSuchAddress .rom i)

/-- `push(rxq, v)` (10_state.md R27). -/
def pushRxq (v : Byte) (s : State) : State := { s with rxq := s.rxq ++ [v] }

/-- `push(txq, v)` (10_state.md R28). -/
def pushTxq (v : Byte) (s : State) : State := { s with txq := s.txq ++ [v] }

/-- `|rxq| < RXQ_DEPTH` (44_byte_engine.md R187). -/
def rxqHasRoom (s : State) : Bool := decide (s.rxq.length < s.cfg.rxqDepth)

/-- `|txq| < TXQ_DEPTH` (43_dispatch_variants.md R146). -/
def txqHasRoom (s : State) : Bool := decide (s.txq.length < s.cfg.txqDepth)

/-- `raise X`: set the sticky flag of the condition, append its code to `diag`, and go on with the next
statement (60_exceptions.md R207). It is the only thing an error condition does: no vector, no saved state,
no mode change. There is no return beside it, since there is nothing to return from (R207, R219). -/
def raise (c : Condition) (s : State) : State :=
  let t := setStickyFlag c s
  { t with diag := t.diag ++ [c] }

/-- A fresh draw of `TX_OVERFLOW_BYTE` (10_state.md R33): the free value and the state whose next draw is
another one (log 3). -/
def drawOverflowByte (s : State) : Byte × State :=
  (Config.txOverflowByte s.draws, { s with draws := s.draws + 1 })

/-- The outcome of an operation that can run into a byte a buffer does not have. -/
def answer (r : Except Fault State) : Host.Outcome State Fault Refusal :=
  match r with
  | .ok s => .next s
  | .error e => .fault e

/-- An operation that exists in variant A only (10_state.md R40, log 12). -/
def onlyInA (op : State → State) (s : State) : Host.Outcome State Fault Refusal :=
  match s.cfg.variant with
  | .aPolled => .next (op s)
  | .bEvent => .refused .absentInVariantB

/-- An operation that exists in variant B only (10_state.md R40, 42_transaction_tracker.md R140, log 12). -/
def onlyInB (op : State → Except Fault State) (s : State) : Host.Outcome State Fault Refusal :=
  match s.cfg.variant with
  | .bEvent => answer (op s)
  | .aPolled => .refused .absentInVariantA

/-- What the observation port shows, by variant (10_state.md R38). -/
inductive Observed where
  | inA (seqState : SeqState) (nRxq nTxq : Nat) (frameSeq : Byte) (req : RequestFrame) (rep : ReplyFrame)
  | inB (phase : Phase) (rxHead txHead : BitVec 4) (frameSeq : Byte) (rxOvf txOvf : Bool)
      (req : RequestFrame) (rep : ReplyFrame)
deriving DecidableEq, Repr

/-- `OBS`, the read-only observation port; reading it has no side effect (10_state.md R38). -/
def obs (s : State) : Observed :=
  match s.cfg.variant with
  | .aPolled => .inA s.seqState s.rxq.length s.txq.length s.frameSeq s.req s.rep
  | .bEvent => .inB s.phase s.rxHead s.txHead s.frameSeq s.rxOvf s.txOvf s.req s.rep

/-- The next input and the state without it; nothing where no input is left (log 5). -/
def fetch (s : State) : Option (Packet × State) :=
  match s.input with
  | [] => none
  | p :: rest => some (p, { s with input := rest })

/-- What must be selected for an operation of a table word to be the one that runs: an event needs variant B;
a sequencer code needs variant A and a sequencer whose state has that code (log 8). -/
def selectFor (i : Instr) (s : State) : State :=
  match i with
  | .evStart | .evStop | .evByteRx _ _ | .evByteReq => { s with cfg := { s.cfg with variant := .bEvent } }
  | .sqPoll => { s with cfg := { s.cfg with variant := .aPolled }, seqState := .poll }
  | .sqRead k => { s with cfg := { s.cfg with variant := .aPolled }, seqState := .read k }
  | .sqCompose => { s with cfg := { s.cfg with variant := .aPolled }, seqState := .compose }
  | .sqWrite k => { s with cfg := { s.cfg with variant := .aPolled }, seqState := .write k }
  | _ => s

/-- A table word placed as the next input (log 8). -/
def placeTableWord (nbits w : Nat) (s : State) : State :=
  let t := match decodeTableWord nbits w with
    | some i => selectFor i s
    | none => s
  { t with input := packetOfTableWord nbits w :: t.input }

end Sys2Proof.Machine
end

