-- ==== Sys2Proof/Machine/FrameCodec.lean ====
section
/-! DEFINITION. The Frame Codec (40_frame_codec.md): `CHECKSUM`, `SEQ_STAMP`, `BUILD_REPLY`. -/

namespace Sys2Proof.Machine

/-- One step of the fold: XOR first, then +1 with the carry discarded (40_frame_codec.md R96, R99). -/
def foldByte (acc b : Byte) : Byte := (acc ^^^ b) + 1

/-- The XOR-and-increment fold from 0 (40_frame_codec.md R96). -/
def checksum (bytes : List Byte) : Byte := bytes.foldl foldByte 0

/-- Bytes 0..13 of a frame, the range of the checksum (40_frame_codec.md R95). -/
def checkedBytes (f : ReplyFrame) : List Byte := f.toList.take 14

/-- Whether byte 14 of a frame is the fold of bytes 0..13 (40_frame_codec.md R101 (a),
70_reset_and_hazards.md R246). -/
def passesCheck (f : ReplyFrame) : Bool := checksumByteOf f == checksum (checkedBytes f)

/-- `f[13] <- frame_seq; frame_seq <- (frame_seq + 1) mod 256` (40_frame_codec.md R94). -/
def seqStamp (f : ReplyFrame) (s : State) : ReplyFrame × State :=
  (f.set 13 s.frameSeq, { s with frameSeq := s.frameSeq + 1 })

/-- `build_reply(payload, mode_echo)`, its steps in order; bytes 13 and 14 are written by steps 3 and 5
before anything reads them (40_frame_codec.md R91 to R95). -/
def buildReply (payload : Payload) (modeEcho : Byte) (s : State) : ReplyFrame × State :=
  let started : ReplyFrame := payload ++ (#v[modeEcho, 0, 0] : Vector Byte 3)
  let stamped := seqStamp started s
  (stamped.1.set 14 (checksum (checkedBytes stamped.1)), stamped.2)

/-- `CHECKSUM` of fourteen bytes (40_frame_codec.md R96). -/
def execChecksum (b : Checked) (s : State) : Host.Outcome State Fault Refusal :=
  .next { s with ret := .byte (checksum b.toList) }

/-- `SEQ_STAMP` of a frame being built (40_frame_codec.md R94, log 18). -/
def execSeqStamp (f : ReplyFrame) (s : State) : Host.Outcome State Fault Refusal :=
  let r := seqStamp f s
  .next { r.2 with ret := .frame r.1 }

/-- `BUILD_REPLY` (40_frame_codec.md R91). -/
def execBuildReply (payload : Payload) (modeEcho : Byte) (s : State) : Host.Outcome State Fault Refusal :=
  let r := buildReply payload modeEcho s
  .next { r.2 with ret := .frame r.1 }

end Sys2Proof.Machine
end

