-- ==== Sys2Proof/Machine/ModeTable.lean ====
section
/-! DEFINITION. The Mode Table (41_mode_table.md): `LOOKUP` and the five rows of format RQ0. -/

namespace Sys2Proof.Machine

/-- The entry a mode byte selects: 3, 4, 5 exactly, every other value entry 0 (41_mode_table.md R106). -/
def selOf (m : Byte) : Fin 4 :=
  if m = 0x03 then 1
  else if m = 0x04 then 2
  else if m = 0x05 then 3
  else 0

/-- An entry of the table: its payload and its mode id (41_mode_table.md R105). -/
def entry (sel : Fin 4) : Payload × Byte := (romPayload sel, modeId sel)

/-- `lookup(m)`, a pure total function (41_mode_table.md R106). -/
def lookup (m : Byte) : Payload × Byte := entry (selOf m)

/-- A looked-up pair on the model's return port (log 10); nothing else of the state changes. -/
def returnEntry (e : Payload × Byte) (s : State) : State := { s with ret := .selected e.1 e.2 }

/-- `LOOKUP` (41_mode_table.md R106). -/
def execLookup (m : Byte) (s : State) : Host.Outcome State Fault Refusal :=
  .next (returnEntry (lookup m) s)

/-- `MODE_NORMAL`, request byte 0 = 1 (41_mode_table.md R107). -/
def execModeNormal (s : State) : Host.Outcome State Fault Refusal :=
  .next (returnEntry (entry 0) s)

/-- `MODE_IDENTIFY`, request byte 0 = 3 (41_mode_table.md R108). -/
def execModeIdentify (s : State) : Host.Outcome State Fault Refusal :=
  .next (returnEntry (entry 1) s)

/-- `MODE_CHALLENGE`, request byte 0 = 4 (41_mode_table.md R109). -/
def execModeChallenge (s : State) : Host.Outcome State Fault Refusal :=
  .next (returnEntry (entry 2) s)

/-- `MODE_SERIAL`, request byte 0 = 5 (41_mode_table.md R110). -/
def execModeSerial (s : State) : Host.Outcome State Fault Refusal :=
  .next (returnEntry (entry 3) s)

/-- `MODE_FALLBACK`, any other request byte 0: the Normal entry, echo 1, no error (41_mode_table.md R111). -/
def execModeFallback (_m : Byte) (s : State) : Host.Outcome State Fault Refusal :=
  .next (returnEntry (entry 0) s)

end Sys2Proof.Machine
end

