-- ==== Sys2Proof/Machine/Tracker.lean ====
section
/-! DEFINITION. The Transaction Tracker (42_transaction_tracker.md): `COMPOSE`, the four events, and the
reserved event words. -/

namespace Sys2Proof.Machine

/-- `compose()`: look up `req[0]`, build the reply, store all 15 bytes of `rep` at once
(42_transaction_tracker.md R129). -/
def compose (s : State) : State :=
  let e := lookup (modeSelector s.req)
  let r := buildReply e.1 e.2 s
  { r.2 with rep := r.1 }

/-- `EV_START` (42_transaction_tracker.md R119). -/
def evStart (s : State) : State :=
  { s with rxHead := 0, txHead := 0, phase := .receiving }

/-- `EV_STOP` (42_transaction_tracker.md R120). -/
def evStop (s : State) : State :=
  { s with rxHead := 0, txHead := 0, phase := .idle }

/-- The overflow arm of `EV_BYTE_RX`: the byte is discarded (42_transaction_tracker.md R124). -/
def rxOverflow (s : State) : State :=
  raise .requestOverflow { s with rxHead := 0 }

/-- The store arm of `EV_BYTE_RX`; the ninth byte composes (42_transaction_tracker.md R123, R128). -/
def rxStore (d : Byte) (s : State) : Except Fault State :=
  match memWrite .req s.rxHead.toNat d s with
  | .error e => .error e
  | .ok t =>
    let u := { t with rxHead := t.rxHead + 1 }
    .ok (if u.rxHead = 9 then compose u else u)

/-- `EV_BYTE_RX(d, first)`, steps 1 to 3 (42_transaction_tracker.md R121, R122). -/
def evByteRx (d : Byte) (first : Bool) (s : State) : Except Fault State :=
  let t := if first then { s with rxHead := 0 } else s
  match (if t.rxHead = 9 then .ok (rxOverflow t) else rxStore d t) with
  | .error e => .error e
  | .ok u => .ok { u with phase := .receiving }

/-- The overflow arm of `EV_BYTE_REQ`: the byte is a draw (42_transaction_tracker.md R127). -/
def txOverflow (s : State) : Byte × State :=
  drawOverflowByte (raise .replyOverflow { s with txHead := 0 })

/-- `rep[tx_head]`, which exists since the cursor is not 15 (42_transaction_tracker.md R126). -/
def repAtCursor (s : State) (h : s.txHead ≠ 15) : Byte :=
  s.rep[s.txHead.toNat]'(by
    have lt := s.txHead.isLt
    have ne : s.txHead.toNat ≠ 15 := fun e => h (BitVec.eq_of_toNat_eq e)
    omega)

/-- `EV_BYTE_REQ`: the byte to send and the state after (42_transaction_tracker.md R125). -/
def evByteReq (s : State) : Byte × State :=
  if h : s.txHead = 15 then
    ((txOverflow s).1, { (txOverflow s).2 with phase := .replying })
  else
    (repAtCursor s h, { s with txHead := s.txHead + 1, phase := .replying })

/-- `COMPOSE` (42_transaction_tracker.md R129). That it can be supplied alone, outside the event or the
sequencer step that calls it, is the model's choice (DESIGN CHOICE, log 27). -/
def execCompose (s : State) : Host.Outcome State Fault Refusal :=
  .next (compose s)

/-- `EV_START`, variant B (42_transaction_tracker.md R119). -/
def execEvStart (s : State) : Host.Outcome State Fault Refusal :=
  onlyInB (fun t => .ok (evStart t)) s

/-- `EV_STOP`, variant B (42_transaction_tracker.md R120). -/
def execEvStop (s : State) : Host.Outcome State Fault Refusal :=
  onlyInB (fun t => .ok (evStop t)) s

/-- `EV_BYTE_RX(d, first)`, variant B (42_transaction_tracker.md R122). -/
def execEvByteRx (d : Byte) (first : Bool) (s : State) : Host.Outcome State Fault Refusal :=
  onlyInB (evByteRx d first) s

/-- `EV_BYTE_REQ`, variant B; its result is on the return port (42_transaction_tracker.md R118, R125). -/
def execEvByteReq (s : State) : Host.Outcome State Fault Refusal :=
  onlyInB (fun t => .ok { (evByteReq t).2 with ret := .byte (evByteReq t).1 }) s

/-- `EW_RESERVED`, kind 0: refused (30_encoding.md R78). -/
def execEwReservedStart (_low : BitVec 9) (_s : State) : Host.Outcome State Fault Refusal :=
  .refused .reservedEventWord

/-- `EW_RESERVED`, kind 1: refused (30_encoding.md R78). -/
def execEwReservedStop (_low : BitVec 9) (_s : State) : Host.Outcome State Fault Refusal :=
  .refused .reservedEventWord

/-- `EW_RESERVED`, kind 3: refused (30_encoding.md R78). -/
def execEwReservedReq (_low : BitVec 9) (_s : State) : Host.Outcome State Fault Refusal :=
  .refused .reservedEventWord

end Sys2Proof.Machine
end

