-- ==== Sys2Proof/Machine/ByteEngine.lean ====
section
/-! DEFINITION. The byte engine (44_byte_engine.md): the address decision, sending and receiving, the line
operations, `SAMPLE`, and the end of a hold. -/

namespace Sys2Proof.Machine

/-- `ADDR_W`: the device's address, to write; it acknowledges (44_byte_engine.md R182). -/
def addrW (s : State) : State :=
  { s with matched := true, rw := false, firstPending := true, sdaOut := false }

/-- `ADDR_R`: the device's address, to read; it acknowledges (44_byte_engine.md R183). -/
def addrR (s : State) : State :=
  { s with matched := true, rw := true, sdaOut := false }

/-- `ADDR_OTHER`: not for this device; it stays silent (44_byte_engine.md R184). -/
def addrOther (s : State) : State :=
  { s with be := .wait, sdaOut := true }

/-- The address decision on the byte in `sr` (44_byte_engine.md R181). -/
def addressDecision (s : State) : State :=
  if answers (addrField s.sr) then
    if rwField s.sr then addrR s else addrW s
  else addrOther s

/-- `LOAD(d)` (44_byte_engine.md R190). -/
def load (d : Byte) (s : State) : State :=
  { s with sr := d, sdaOut := d.getLsbD 7, bitcnt := 0 }

/-- `HOLD_TXQ_EMPTY` is entered: SCL low, SDA as it is, `bitcnt` = 0 (44_byte_engine.md R190, R197, log 13). -/
def holdTxqEmpty (s : State) : State :=
  { s with hold := .txqEmpty, sclOut := false, bitcnt := 0 }

/-- `FETCH`, getting the next byte to send (44_byte_engine.md R190). -/
def fetchToSend (s : State) : State :=
  match s.cfg.variant with
  | .bEvent => load (evByteReq s).1 (evByteReq s).2
  | .aPolled =>
    match s.txq with
    | d :: rest => load d { s with txq := rest }
    | [] => holdTxqEmpty s

/-- The end of the address acknowledge (44_byte_engine.md R185). -/
def endAddressAck (s : State) : State :=
  let t := { s with sdaOut := true, bitcnt := 0 }
  if s.rw then fetchToSend { t with be := .tx } else { t with be := .rx }

/-- `push(rxq, sr) ; first_pending <- 0 ; sda_out <- 0` (44_byte_engine.md R187, R198). -/
def acceptByte (s : State) : State :=
  { pushRxq s.sr s with firstPending := false, sdaOut := false }

/-- `HOLD_RXQ_FULL` is entered: SCL low, the byte stays in `sr`, not acknowledged yet
(44_byte_engine.md R187, R196). -/
def holdRxqFull (s : State) : State :=
  { s with hold := .rxqFull, sclOut := false }

/-- Delivery of a received byte, by variant (44_byte_engine.md R186, R187). -/
def deliver (s : State) : Except Fault State :=
  match s.cfg.variant with
  | .bEvent =>
    match evByteRx s.sr s.firstPending s with
    | .error e => .error e
    | .ok t => .ok { t with firstPending := false, sdaOut := false }
  | .aPolled => .ok (if rxqHasRoom s then acceptByte s else holdRxqFull s)

/-- The end of a data acknowledge (44_byte_engine.md R188). -/
def endDataAck (s : State) : State :=
  { s with sdaOut := true, bitcnt := 0 }

/-- Drive the next bit (44_byte_engine.md R191). -/
def driveNextBit (s : State) : State :=
  { s with sdaOut := bitToSend s.sr s.bitcnt.toNat }

/-- Release SDA for the controller's acknowledge (44_byte_engine.md R192). -/
def releaseForAck (s : State) : State :=
  { s with sdaOut := true }

/-- After the controller's acknowledge: the next byte, or stop sending (44_byte_engine.md R193). -/
def afterControllerAck (s : State) : State :=
  if s.nack then { s with be := .wait, sdaOut := true, bitcnt := 0 } else fetchToSend s

/-- `LC_FALL`, by `be` and `bitcnt`; anything else is nothing (44_byte_engine.md R180). -/
def lcFall (s : State) : Except Fault State :=
  match s.be with
  | .addr =>
    if s.bitcnt = 8 then .ok (addressDecision s)
    else if s.bitcnt = 9 then .ok (endAddressAck s)
    else .ok s
  | .rx =>
    if s.bitcnt = 8 then deliver s
    else if s.bitcnt = 9 then .ok (endDataAck s)
    else .ok s
  | .tx =>
    if 1 ≤ s.bitcnt ∧ s.bitcnt ≤ 7 then .ok (driveNextBit s)
    else if s.bitcnt = 8 then .ok (releaseForAck s)
    else if s.bitcnt = 9 then .ok (afterControllerAck s)
    else .ok s
  | .idle => .ok s
  | .wait => .ok s

/-- `LC_RISE` with the sampled bit (44_byte_engine.md R177 to R179). A `bitcnt` above 8 cannot be met here
and nothing is done for it (log 14). -/
def lcRise (sda : Bool) (s : State) : State :=
  match s.be with
  | .addr | .rx =>
    if s.bitcnt ≤ 7 then { s with sr := shiftIn s.sr sda, bitcnt := s.bitcnt + 1 }
    else if s.bitcnt = 8 then { s with bitcnt := 9 }
    else s
  | .tx =>
    if s.bitcnt ≤ 7 then { s with bitcnt := s.bitcnt + 1 }
    else if s.bitcnt = 8 then { s with nack := sda, bitcnt := 9 }
    else s
  | .idle => s
  | .wait => s

/-- An event that only variant B emits (44_byte_engine.md R174, R176). -/
def emitInB (event : State → State) (s : State) : State :=
  match s.cfg.variant with
  | .bEvent => event s
  | .aPolled => s

/-- `LC_START` (44_byte_engine.md R174). -/
def lcStart (s : State) : State :=
  emitInB evStart
    { s with be := .addr, bitcnt := 0, matched := false, firstPending := false, sdaOut := true }

/-- `LC_STOP` (44_byte_engine.md R176). -/
def lcStop (s : State) : State :=
  emitInB evStop
    { s with be := .idle, bitcnt := 0, matched := false, firstPending := false, sdaOut := true }

/-- `LC_NOP`: no edge of SCL and no condition; what else a sample does is in steps 3 and 4 of `SAMPLE`
(44_byte_engine.md R173, log 9). -/
def lcNop (s : State) : State := s

/-- `ADDR_W` (44_byte_engine.md R182). -/
def execAddrW (s : State) : Host.Outcome State Fault Refusal := .next (addrW s)

/-- `ADDR_R` (44_byte_engine.md R183). -/
def execAddrR (s : State) : Host.Outcome State Fault Refusal := .next (addrR s)

/-- `ADDR_OTHER` (44_byte_engine.md R184). -/
def execAddrOther (_addr : BitVec 7) (_rw : Bool) (s : State) : Host.Outcome State Fault Refusal :=
  .next (addrOther s)

/-- `LC_NOP`, code `0000`: both lines stay low (44_byte_engine.md R173). -/
def execLcNop0000 (s : State) : Host.Outcome State Fault Refusal := .next (lcNop s)

/-- `LC_NOP`, code `0001`: SDA rises while SCL is low (44_byte_engine.md R173). -/
def execLcNop0001 (s : State) : Host.Outcome State Fault Refusal := .next (lcNop s)

/-- `LC_NOP`, code `0100`: SDA falls while SCL is low (44_byte_engine.md R173). -/
def execLcNop0100 (s : State) : Host.Outcome State Fault Refusal := .next (lcNop s)

/-- `LC_NOP`, code `0101` (44_byte_engine.md R173). -/
def execLcNop0101 (s : State) : Host.Outcome State Fault Refusal := .next (lcNop s)

/-- `LC_NOP`, code `1010` (44_byte_engine.md R173). -/
def execLcNop1010 (s : State) : Host.Outcome State Fault Refusal := .next (lcNop s)

/-- `LC_NOP`, code `1111` (44_byte_engine.md R173). -/
def execLcNop1111 (s : State) : Host.Outcome State Fault Refusal := .next (lcNop s)

/-- `LC_RISE`, code `0010`: samples 0 (44_byte_engine.md R177). -/
def execLcRise0010 (s : State) : Host.Outcome State Fault Refusal := .next (lcRise false s)

/-- `LC_RISE`, code `0111`: samples 1 (44_byte_engine.md R177). -/
def execLcRise0111 (s : State) : Host.Outcome State Fault Refusal := .next (lcRise true s)

/-- `LC_FALL`, code `1000`: SDA low (44_byte_engine.md R180). -/
def execLcFall1000 (s : State) : Host.Outcome State Fault Refusal := answer (lcFall s)

/-- `LC_FALL`, code `1101`: SDA high (44_byte_engine.md R180). -/
def execLcFall1101 (s : State) : Host.Outcome State Fault Refusal := answer (lcFall s)

/-- `LC_START`, code `1110` (44_byte_engine.md R174). -/
def execLcStart (s : State) : Host.Outcome State Fault Refusal := .next (lcStart s)

/-- `LC_STOP`, code `1011` (44_byte_engine.md R176). -/
def execLcStop (s : State) : Host.Outcome State Fault Refusal := .next (lcStop s)

/-- `LC_RESERVED`, code `0011`: refused (30_encoding.md R81). -/
def execLcReserved0011 (_s : State) : Host.Outcome State Fault Refusal := .refused .reservedLineCode

/-- `LC_RESERVED`, code `0110`: refused (30_encoding.md R81). -/
def execLcReserved0110 (_s : State) : Host.Outcome State Fault Refusal := .refused .reservedLineCode

/-- `LC_RESERVED`, code `1001`: refused (30_encoding.md R81). -/
def execLcReserved1001 (_s : State) : Host.Outcome State Fault Refusal := .refused .reservedLineCode

/-- `LC_RESERVED`, code `1100`: refused (30_encoding.md R81). -/
def execLcReserved1100 (_s : State) : Host.Outcome State Fault Refusal := .refused .reservedLineCode

/-- The dispatch of a decoded line code to its row (44_byte_engine.md R172 step 5). `decodeLC` gives no
other operation than these sixteen. -/
def runLine (i : Instr) (s : State) : Host.Outcome State Fault Refusal :=
  match i with
  | .lcNop0000 => execLcNop0000 s
  | .lcNop0001 => execLcNop0001 s
  | .lcRise0010 => execLcRise0010 s
  | .lcReserved0011 => execLcReserved0011 s
  | .lcNop0100 => execLcNop0100 s
  | .lcNop0101 => execLcNop0101 s
  | .lcReserved0110 => execLcReserved0110 s
  | .lcRise0111 => execLcRise0111 s
  | .lcFall1000 => execLcFall1000 s
  | .lcReserved1001 => execLcReserved1001 s
  | .lcNop1010 => execLcNop1010 s
  | .lcStop => execLcStop s
  | .lcReserved1100 => execLcReserved1100 s
  | .lcFall1101 => execLcFall1101 s
  | .lcStart => execLcStart s
  | .lcNop1111 => execLcNop1111 s
  | _ => .refused .reservedLineCode

/-- Step 4 of `SAMPLE`: the sample after a `BE_RESUME` lets SCL go (44_byte_engine.md R172, R199). -/
def releaseHold (s : State) : State :=
  if s.hold = .release then { s with sclOut := true, hold := .none } else s

/-- Both lines change between two samples (44_byte_engine.md R200 W1). -/
def changesBothLines (sclC sdaC : Bool) (s : State) : Bool :=
  wiredAnd sclC s.sclOut != s.sclQ && wiredAnd sdaC s.sdaOut != s.sdaQ

/-- The first sample after `RESET` finds a line low (70_reset_and_hazards.md R238). -/
def findsBusBusy (sclC sdaC : Bool) (s : State) : Bool :=
  s.expect == .idleBus && !(wiredAnd sclC s.sclOut && wiredAnd sdaC s.sdaOut)

/-- The controller lets SCL go in the sample after SCL fell (44_byte_engine.md R200 W2). -/
def releasesSclEarly (sclC : Bool) (s : State) : Bool :=
  s.expect == .sclLow && sclC

/-- The controller, which has let SCL go, pulls it low again or moves SDA before the device has let SCL go
(44_byte_engine.md R200 W5). -/
def ignoresHold (sclC sdaC : Bool) (s : State) : Bool :=
  match s.expect with
  | .kept sda => !sclC || sdaC != sda
  | .idleBus | .sclLow | .anything => false

/-- SDA is driven low by another party in an acknowledge clock of a byte written to the device or in a data
clock of a byte it sends (44_byte_engine.md R200 W4, W6). Where the device pulls SDA low, any sample with SCL
high shows it. Where the device drives a 1, the line is low as the clock ends; before that a low line can still
become a start or stop condition, which has its effect (44_byte_engine.md R175, 70_reset_and_hazards.md R254). -/
def drivesSdaAgainst (sclC sdaC : Bool) (s : State) : Bool :=
  let scl := wiredAnd sclC s.sclOut
  (scl && !s.sdaOut && !sdaC) ||
  (s.sclQ && !scl && s.sdaOut && !sdaC && s.be == .tx && decide (1 ≤ s.bitcnt ∧ s.bitcnt ≤ 8))

/-- Why a sample is outside the line rules and refused, if it is (44_byte_engine.md R200, log 16). W3 needs no
test: every change of SDA while SCL is high is a start or stop condition. -/
def breach (sclC sdaC : Bool) (s : State) : Option Refusal :=
  if changesBothLines sclC sdaC s then some .reservedLineCode
  else if findsBusBusy sclC sdaC s then some .busNotIdleAfterReset
  else if releasesSclEarly sclC s then some .sclNotKeptLow
  else if ignoresHold sclC sdaC s then some .holdNotHonoured
  else if drivesSdaAgainst sclC sdaC s then some .sdaNotReleased
  else none

/-- What a sample demands of the next one (44_byte_engine.md R200 W2, W5). -/
def expectAfter (sclC sdaC : Bool) (s : State) : Expect :=
  let scl := wiredAnd sclC s.sclOut
  if s.sclQ && !scl then .sclLow
  else if sclC && !scl then .kept sdaC
  else .anything

/-- Step 3 of `SAMPLE`, the lines are remembered; and what the next sample must be (44_byte_engine.md R172,
log 16). -/
def rememberLines (sclC sdaC : Bool) (s : State) : State :=
  { s with sclQ := wiredAnd sclC s.sclOut, sdaQ := wiredAnd sdaC s.sdaOut, expect := expectAfter sclC sdaC s }

/-- `SAMPLE(scl_c, sda_c)`, steps 1 to 5 (44_byte_engine.md R172); an input outside the line rules is refused
(44_byte_engine.md R200, 70_reset_and_hazards.md R238). -/
def execSample (sclC sdaC : Bool) (s : State) : Host.Outcome State Fault Refusal :=
  match breach sclC sdaC s with
  | some r => .refused r
  | none =>
    let code := lineCode s.sclQ s.sdaQ (wiredAnd sclC s.sclOut) (wiredAnd sdaC s.sdaOut)
    runLine (decodeLC code) (releaseHold (rememberLines sclC sdaC s))

/-- `BE_RESUME`: ends a hold when the queue can serve; where it is not enabled, nothing changes
(44_byte_engine.md R198, log 11). -/
def beResume (s : State) : State :=
  match s.hold with
  | .rxqFull => if rxqHasRoom s then { acceptByte s with hold := .release } else s
  | .txqEmpty =>
    match s.txq with
    | d :: rest => { load d { s with txq := rest } with hold := .release }
    | [] => s
  | .none => s
  | .release => s

/-- `BE_RESUME`, variant A (44_byte_engine.md R198). -/
def execBeResume (s : State) : Host.Outcome State Fault Refusal :=
  onlyInA beResume s

end Sys2Proof.Machine
end

