-- ==== Sys2Proof/Machine/Reset.lean ====
section
/-! DEFINITION. `RESET` (70_reset_and_hazards.md R236). -/

namespace Sys2Proof.Machine

/-- The values `RESET` installs; `req`, `sr`, `rw`, `nack` become free values, drawn afresh
(70_reset_and_hazards.md R236, 10_state.md R39, log 4). The parameters and the inputs to come stay.
The next sample must find the bus idle (R238, log 16). -/
def resetState (s : State) : State where
  cfg := s.cfg
  req := Config.reqAfterReset s.draws
  rep := s.cfg.replyReset
  rxHead := 0
  txHead := 0
  frameSeq := 0
  phase := .idle
  rxOvf := false
  txOvf := false
  diag := []
  be := .idle
  bitcnt := 0
  sr := Config.srAfterReset s.draws
  rw := Config.rwAfterReset s.draws
  matched := false
  firstPending := false
  nack := Config.nackAfterReset s.draws
  sclQ := true
  sdaQ := true
  sdaOut := true
  sclOut := true
  hold := .none
  rxq := []
  txq := []
  seqState := .poll
  draws := s.draws + 1
  expect := .idleBus
  ret := .nothing
  input := s.input

/-- `RESET`, process start (70_reset_and_hazards.md R236). -/
def execReset (s : State) : Host.Outcome State Fault Refusal :=
  .next (resetState s)

end Sys2Proof.Machine
end

