-- ==== Sys2Proof/Machine/Sequencer.lean ====
section
/-! DEFINITION. Variant A's polled sequencer (43_dispatch_variants.md R141 to R146). A step that is not
enabled waits: nothing changes (R142, log 11). -/

namespace Sys2Proof.Machine

/-- `SQ_POLL`: wait for enough bytes; none is removed (43_dispatch_variants.md R143). -/
def sqPoll (s : State) : State :=
  if s.seqState = .poll ∧ s.cfg.pollThreshold ≤ s.rxq.length then { s with seqState := .read 0 } else s

/-- `SQ_READ(k)`: `req[k] <- pop(rxq)` (43_dispatch_variants.md R144). -/
def sqRead (k : Fin 9) (s : State) : State :=
  if s.seqState = .read k then
    match s.rxq with
    | d :: rest => { s with req := s.req.set k.val d, rxq := rest, seqState := seqAfterRead k }
    | [] => s
  else s

/-- `SQ_COMPOSE`: never blocks (43_dispatch_variants.md R145). -/
def sqCompose (s : State) : State :=
  if s.seqState = .compose then { compose s with seqState := .write 0 } else s

/-- `SQ_WRITE(k)`: `push(txq, rep[k])` (43_dispatch_variants.md R146). -/
def sqWrite (k : Fin 15) (s : State) : State :=
  if s.seqState = .write k ∧ txqHasRoom s then
    { pushTxq s.rep[k.val] s with seqState := seqAfterWrite k }
  else s

/-- `SQ_POLL`, variant A (43_dispatch_variants.md R143). -/
def execSqPoll (s : State) : Host.Outcome State Fault Refusal :=
  onlyInA sqPoll s

/-- `SQ_READ(k)`, variant A (43_dispatch_variants.md R144). -/
def execSqRead (k : Fin 9) (s : State) : Host.Outcome State Fault Refusal :=
  onlyInA (sqRead k) s

/-- `SQ_COMPOSE`, variant A (43_dispatch_variants.md R145). -/
def execSqCompose (s : State) : Host.Outcome State Fault Refusal :=
  onlyInA sqCompose s

/-- `SQ_WRITE(k)`, variant A (43_dispatch_variants.md R146). -/
def execSqWrite (k : Fin 15) (s : State) : Host.Outcome State Fault Refusal :=
  onlyInA (sqWrite k) s

end Sys2Proof.Machine
end

