-- ==== Sys2Proof/Machine/Dispatch.lean ====
section
/-! DEFINITION. One arm per operation. -/

namespace Sys2Proof.Machine

def exec (i : Instr) (s : State) : Host.Outcome State Fault Refusal :=
  match i with
  -- format AB, the address byte (30_encoding.md R66, R67)
  | .addrW => Sys2Proof.Machine.execAddrW s
  | .addrR => Sys2Proof.Machine.execAddrR s
  | .addrOther addr rw => Sys2Proof.Machine.execAddrOther addr rw s
  -- format RQ0, request byte 0 (30_encoding.md R70)
  | .modeNormal => Sys2Proof.Machine.execModeNormal s
  | .modeIdentify => Sys2Proof.Machine.execModeIdentify s
  | .modeChallenge => Sys2Proof.Machine.execModeChallenge s
  | .modeSerial => Sys2Proof.Machine.execModeSerial s
  | .modeFallback m => Sys2Proof.Machine.execModeFallback m s
  -- format EW, the event word (30_encoding.md R73 to R78)
  | .evStart => Sys2Proof.Machine.execEvStart s
  | .evStop => Sys2Proof.Machine.execEvStop s
  | .evByteRx d first => Sys2Proof.Machine.execEvByteRx d first s
  | .evByteReq => Sys2Proof.Machine.execEvByteReq s
  | .ewReservedStart low => Sys2Proof.Machine.execEwReservedStart low s
  | .ewReservedStop low => Sys2Proof.Machine.execEwReservedStop low s
  | .ewReservedReq low => Sys2Proof.Machine.execEwReservedReq low s
  -- format LC, the line code (30_encoding.md R79 to R81), one row per code
  | .lcNop0000 => Sys2Proof.Machine.execLcNop0000 s
  | .lcNop0001 => Sys2Proof.Machine.execLcNop0001 s
  | .lcRise0010 => Sys2Proof.Machine.execLcRise0010 s
  | .lcReserved0011 => Sys2Proof.Machine.execLcReserved0011 s
  | .lcNop0100 => Sys2Proof.Machine.execLcNop0100 s
  | .lcNop0101 => Sys2Proof.Machine.execLcNop0101 s
  | .lcReserved0110 => Sys2Proof.Machine.execLcReserved0110 s
  | .lcRise0111 => Sys2Proof.Machine.execLcRise0111 s
  | .lcFall1000 => Sys2Proof.Machine.execLcFall1000 s
  | .lcReserved1001 => Sys2Proof.Machine.execLcReserved1001 s
  | .lcNop1010 => Sys2Proof.Machine.execLcNop1010 s
  | .lcStop => Sys2Proof.Machine.execLcStop s
  | .lcReserved1100 => Sys2Proof.Machine.execLcReserved1100 s
  | .lcFall1101 => Sys2Proof.Machine.execLcFall1101 s
  | .lcStart => Sys2Proof.Machine.execLcStart s
  | .lcNop1111 => Sys2Proof.Machine.execLcNop1111 s
  -- format SQ, the sequencer code (30_encoding.md R84)
  | .sqPoll => Sys2Proof.Machine.execSqPoll s
  | .sqRead k => Sys2Proof.Machine.execSqRead k s
  | .sqCompose => Sys2Proof.Machine.execSqCompose s
  | .sqWrite k => Sys2Proof.Machine.execSqWrite k s
  -- format FN, internal functions without an encoding (30_encoding.md R64)
  | .compose => Sys2Proof.Machine.execCompose s
  | .lookup m => Sys2Proof.Machine.execLookup m s
  | .buildReply payload modeEcho => Sys2Proof.Machine.execBuildReply payload modeEcho s
  | .seqStamp f => Sys2Proof.Machine.execSeqStamp f s
  | .checksum b => Sys2Proof.Machine.execChecksum b s
  | .sample sclC sdaC => Sys2Proof.Machine.execSample sclC sdaC s
  -- format CTL, control inputs that are on no bus (30_encoding.md R64)
  | .beResume => Sys2Proof.Machine.execBeResume s
  | .reset => Sys2Proof.Machine.execReset s

end Sys2Proof.Machine
end

