-- ==== Sys2Proof/Machine/Step.lean ====
section
/-! DEFINITION. One step: take the next input, decode it, run it (log 5). -/

namespace Sys2Proof.Machine

/-- One step of the machine. Where no input is left the machine rests (log 5). -/
def step (s : State) : Host.Outcome State Fault Refusal :=
  match fetch s with
  | none => .next s
  | some (p, t) =>
    match decode p with
    | .ok i => exec i t
    | .error e => .refused (.undecodable e)

/-- `s` with a table word as its next input, and what that word's operation needs selected (log 8). -/
def State.withFetchWord (s : State) (nbits w : Nat) : State :=
  placeTableWord nbits w s

end Sys2Proof.Machine
end

