-- ==== Sys2Proof/Machine/Script.lean ====
section
/-! DEFINITION. The script notation for bus traffic (30_encoding.md R86, R87), the events each item causes
in variant B (R86, 44_byte_engine.md R203), and the line samples by which a controller clocks a byte
(44_byte_engine.md R170, R204). The step does not use it; it is the spec's own language for inputs. -/

namespace Sys2Proof.Machine

/-- The items of a script (30_encoding.md R86). -/
inductive ScriptItem where
  | s | sr | p | aw | ar
  | a (x : Byte)
  | w (x : Byte)
  | ra | rn | reset
deriving DecidableEq, Repr

/-- What the transaction in progress is to this device. -/
inductive Addressed where
  | no
  | writing (first : Bool)
  | reading
deriving DecidableEq, Repr

/-- The events an item causes in variant B, in order, and what the transaction is to the device after it
(44_byte_engine.md R203). -/
def itemEvents (at_ : Addressed) (item : ScriptItem) : List Instr × Addressed :=
  match item with
  | .s | .sr => ([.evStart], .no)
  | .p => ([.evStop], .no)
  | .aw => ([], .writing true)
  | .ar => ([.evByteReq], .reading)
  | .a x =>
    if answers (addrField x) then
      if rwField x then ([.evByteReq], .reading) else ([], .writing true)
    else ([], .no)
  | .w x =>
    match at_ with
    | .writing first => ([.evByteRx x first], .writing false)
    | .reading | .no => ([], .no)
  | .ra => if at_ = .reading then ([.evByteReq], .reading) else ([], at_)
  | .rn => ([], if at_ = .reading then .no else at_)
  | .reset => ([], .no)

/-- The event sequence of a script (30_encoding.md R86). -/
def scriptEvents (at_ : Addressed) : List ScriptItem → List Instr
  | [] => []
  | item :: rest => (itemEvents at_ item).1 ++ scriptEvents (itemEvents at_ item).2 rest

/-- `REQ[b0 .. b8]` (30_encoding.md R87). -/
def reqScript (b : RequestFrame) : List ScriptItem :=
  [.s, .aw] ++ b.toList.map .w ++ [.p]

/-- `REQm[m]` (30_encoding.md R87). -/
def reqmScript (m : Byte) : List ScriptItem := reqScript #v[m, 0, 0, 0, 0, 0, 0, 0, 0]

/-- `READ15` (30_encoding.md R87). -/
def read15Script : List ScriptItem := [.s, .ar] ++ List.replicate 14 .ra ++ [.rn, .p]

/-- `XFER[m]`: request and read joined by a repeated start (30_encoding.md R87). -/
def xferScript (m : Byte) : List ScriptItem :=
  [.s, .aw, .w m] ++ List.replicate 8 (.w 0) ++ [.sr, .ar] ++ List.replicate 14 .ra ++ [.rn, .p]

/-- One clock in which the controller drives SDA to `b`: SDA set while SCL is low, SCL high, SCL low
(44_byte_engine.md R170, R204). -/
def clockSamples (b : Bool) : List Instr := [.sample false b, .sample true b, .sample false b]

/-- The samples of `W x` after the byte before it: eight data clocks, bit 7 first, and the acknowledge clock
in which the controller releases SDA (20_memory.md R47, 44_byte_engine.md R170). -/
def writeByteSamples (x : Byte) : List Instr :=
  clockSamples (x.getLsbD 7) ++ clockSamples (x.getLsbD 6) ++ clockSamples (x.getLsbD 5) ++
  clockSamples (x.getLsbD 4) ++ clockSamples (x.getLsbD 3) ++ clockSamples (x.getLsbD 2) ++
  clockSamples (x.getLsbD 1) ++ clockSamples (x.getLsbD 0) ++ clockSamples true

/-- The samples of `Ra` (`nack` false) or `Rn` (`nack` true): eight clocks with SDA released, then the
controller's own acknowledge bit (44_byte_engine.md R170, R178). -/
def readByteSamples (nack : Bool) : List Instr :=
  (List.replicate 8 (clockSamples true)).flatten ++ clockSamples nack

end Sys2Proof.Machine
end

