-- ==== Sys2Proof/Safety.lean ====
section
/-! DEFINITION. What counts as a sound state and a sound run: the ranges and ownership of 10_state.md R34 and
R40, what a reply buffer may hold, the engine's invariants (44_byte_engine.md R202), and runs of several
operations. -/

namespace Sys2Proof.Machine

/-- The ranges of 10_state.md R34. `tx_head` ≤ 15 is in its width. -/
abbrev State.InRange (s : State) : Prop :=
  s.rxHead ≤ 9 ∧ s.bitcnt ≤ 9 ∧ s.rxq.length ≤ s.cfg.rxqDepth ∧ s.txq.length ≤ s.cfg.txqDepth

/-- The state of the other variant stands at its reset values (10_state.md R40, 44_byte_engine.md R195,
43_dispatch_variants.md R161). -/
abbrev State.OwnVariantOnly (s : State) : Prop :=
  (s.cfg.variant = .aPolled →
    s.rxHead = 0 ∧ s.txHead = 0 ∧ s.phase = .idle ∧ s.rxOvf = false ∧ s.txOvf = false ∧ s.diag = []) ∧
  (s.cfg.variant = .bEvent → s.rxq = [] ∧ s.txq = [] ∧ s.seqState = .poll ∧ s.hold = .none)

/-- `scl_out` = 0 exactly when `hold` is not `HOLD_NONE` (44_byte_engine.md R202). -/
abbrev State.HoldDrivesScl (s : State) : Prop := s.sclOut = false ↔ s.hold ≠ .none

/-- A sticky flag is set exactly when its code is in `diag` (60_exceptions.md R207). -/
abbrev State.FlagsMatchDiag (s : State) : Prop :=
  (s.rxOvf = true ↔ .requestOverflow ∈ s.diag) ∧ (s.txOvf = true ↔ .replyOverflow ∈ s.diag)

/-- A composed reply: the payload of the mode in byte 12, and a checksum that holds
(40_frame_codec.md R101 (a), 41_mode_table.md R112). -/
abbrev composedReply (f : ReplyFrame) : Prop :=
  passesCheck f = true ∧ ∃ sel : Fin 4, payloadOf f = romPayload sel ∧ modeEchoOf f = modeId sel

/-- `rep` holds `REPLY_RESET` or a composed reply (10_state.md R12). -/
abbrev State.ReplySound (s : State) : Prop := s.rep = s.cfg.replyReset ∨ composedReply s.rep

/-- The invariant every step keeps, whatever the input. -/
abbrev State.Inv (s : State) : Prop :=
  s.cfg.Wf ∧ s.InRange ∧ s.OwnVariantOnly ∧ s.HoldDrivesScl ∧ s.FlagsMatchDiag ∧ s.ReplySound

/-- What holds in `BE_ADDR`: the device pulls SDA low only from the decision at `bitcnt` = 8 on
(44_byte_engine.md R182, R183, R202). -/
abbrev State.AddrClock (s : State) : Prop :=
  s.bitcnt ≤ 9 ∧
  (s.bitcnt ≤ 7 ∨ (s.bitcnt = 8 ∧ s.sclQ = true) →
    s.matched = false ∧ s.firstPending = false ∧ s.sdaOut = true) ∧
  (s.bitcnt = 8 ∧ s.sclQ = false → s.matched = true ∧ s.firstPending = !s.rw ∧ s.sdaOut = false) ∧
  (s.bitcnt = 9 → s.sclQ = true ∧ s.matched = true ∧ s.firstPending = !s.rw ∧ s.sdaOut = false)

/-- What holds in `BE_RX`: the device pulls SDA low only for its acknowledge, and not while it holds a byte
that `rxq` has no room for (44_byte_engine.md R186 to R188, R196, R202). -/
abbrev State.RxClock (s : State) : Prop :=
  s.bitcnt ≤ 9 ∧ s.matched = true ∧ s.rw = false ∧
  (s.bitcnt ≤ 7 ∨ (s.bitcnt = 8 ∧ s.sclQ = true) → s.sdaOut = true) ∧
  (s.bitcnt = 8 ∧ s.sclQ = false →
    if s.hold = .rxqFull then s.sdaOut = true else s.sdaOut = false ∧ s.firstPending = false) ∧
  (s.bitcnt = 9 → s.sclQ = true ∧ s.sdaOut = false ∧ s.firstPending = false)

/-- What holds in `BE_TX`: SDA carries the bit of `sr` that `bitcnt` says, or is released
(44_byte_engine.md R190 to R193, R197, R202). -/
abbrev State.TxClock (s : State) : Prop :=
  s.bitcnt ≤ 9 ∧ s.matched = true ∧ s.rw = true ∧ s.firstPending = false ∧
  (s.bitcnt = 0 → s.sclQ = false) ∧
  (s.bitcnt ≤ 7 ∧ s.sclQ = false →
    s.sdaOut = if s.hold = .txqEmpty then true else bitToSend s.sr s.bitcnt.toNat) ∧
  (1 ≤ s.bitcnt ∧ s.bitcnt ≤ 8 ∧ s.sclQ = true → s.sdaOut = bitToSend s.sr (s.bitcnt.toNat - 1)) ∧
  (s.bitcnt = 8 ∧ s.sclQ = false → s.sdaOut = true) ∧
  (s.bitcnt = 9 → s.sclQ = true ∧ s.sdaOut = true)

/-- What the engine drives and remembers, by `be`, `bitcnt` and the level of SCL
(44_byte_engine.md R177 to R202). -/
abbrev State.EngineClock (s : State) : Prop :=
  (s.be = .idle → s.matched = false ∧ s.firstPending = false ∧ s.sdaOut = true) ∧
  (s.be = .wait → s.firstPending = false ∧ s.sdaOut = true) ∧
  (s.be = .addr → s.AddrClock) ∧ (s.be = .rx → s.RxClock) ∧ (s.be = .tx → s.TxClock)

/-- Where a hold can stand: SCL low, at a delivery or at a fetch (44_byte_engine.md R196 to R199). -/
abbrev State.HoldPlace (s : State) : Prop :=
  (s.hold = .rxqFull → s.sclQ = false ∧ s.be = .rx ∧ s.bitcnt = 8) ∧
  (s.hold = .txqEmpty → s.sclQ = false ∧ s.be = .tx ∧ s.bitcnt = 0) ∧
  (s.hold = .release →
    s.sclQ = false ∧ ((s.be = .rx ∧ s.bitcnt = 8) ∨ (s.be = .tx ∧ s.bitcnt = 0)))

/-- When the next sample is not free: after `RESET` with nothing sampled yet, or with SCL low (log 16). -/
abbrev State.ExpectPlace (s : State) : Prop :=
  (s.expect = .idleBus → s.be = .idle ∧ s.sclQ = true ∧ s.sdaQ = true) ∧
  (s.expect = .sclLow → s.sclQ = false) ∧ (∀ sda, s.expect = .kept sda → s.sclQ = false)

/-- The engine's invariant on what it drives. Its last clause: while the device pulls SDA low, the last sample
saw a line low, so that no start or stop condition can come next (44_byte_engine.md R201). -/
abbrev State.DriveInv (s : State) : Prop :=
  s.EngineClock ∧ s.HoldPlace ∧ s.HoldDrivesScl ∧
  (s.sdaOut = false → s.sclQ = false ∨ s.sdaQ = false)

/-- The engine's invariant. -/
abbrev State.EngineInv (s : State) : Prop := s.DriveInv ∧ s.ExpectPlace

/-- The engine's outputs and `first_pending` are bounded (44_byte_engine.md R202): SDA is low only for an
acknowledge or for a 0 bit of `sr`, the one that `bitcnt` and SCL say is being sent; SCL is low exactly in a hold;
`first_pending` is set only between the decision for a write and the delivery. -/
abbrev State.OutputsBounded (s : State) : Prop :=
  (s.sdaOut = false →
    (s.be = .addr ∧ (s.bitcnt = 8 ∨ s.bitcnt = 9) ∧ s.matched = true) ∨
    (s.be = .rx ∧ (s.bitcnt = 8 ∨ s.bitcnt = 9)) ∨
    (s.be = .tx ∧ s.sclQ = false ∧ s.bitcnt ≤ 7 ∧ bitToSend s.sr s.bitcnt.toNat = false) ∨
    (s.be = .tx ∧ s.sclQ = true ∧ 1 ≤ s.bitcnt ∧ s.bitcnt ≤ 8 ∧ bitToSend s.sr (s.bitcnt.toNat - 1) = false)) ∧
  (s.be = .idle ∨ s.be = .wait → s.sdaOut = true) ∧
  (s.sclOut = false ↔ s.hold ≠ .none) ∧
  (s.firstPending = true →
    (s.be = .addr ∧ (s.bitcnt = 8 ∨ s.bitcnt = 9) ∧ s.matched = true ∧ s.rw = false) ∨
    (s.be = .rx ∧ (s.bitcnt ≤ 7 ∨ (s.bitcnt = 8 ∧ (s.sclQ = true ∨ s.hold = .rxqFull)))))

/-- A sample inside the line rules: at most one line changes (44_byte_engine.md R200 W1), the bus is idle at the
first sample after `RESET` (70_reset_and_hazards.md R238), SCL stays low after it fell (W2), a hold is honoured
(W5), and nobody else drives SDA in a clock of the device (W4, W6). -/
abbrev SampleSound (sclC sdaC : Bool) (s : State) : Prop :=
  ((sclC && s.sclOut) = s.sclQ ∨ (sdaC && s.sdaOut) = s.sdaQ) ∧
  (s.expect = .idleBus → (sclC && s.sclOut) = true ∧ (sdaC && s.sdaOut) = true) ∧
  (s.expect = .sclLow → sclC = false) ∧
  (∀ sda, s.expect = .kept sda → sclC = true ∧ sdaC = sda) ∧
  ((sclC && s.sclOut) = true → s.sdaOut = false → sdaC = true) ∧
  (s.sclQ = true → (sclC && s.sclOut) = false → s.sdaOut = true → s.be = .tx → 1 ≤ s.bitcnt → s.bitcnt ≤ 8 →
    sdaC = true)

/-- The rows the device runs only from inside `SAMPLE`: the line codes and the address classes (log 9). -/
def onlyInsideSample : Instr → Bool
  | .addrW | .addrR | .addrOther _ _ => true
  | .lcNop0000 | .lcNop0001 | .lcRise0010 | .lcReserved0011 => true
  | .lcNop0100 | .lcNop0101 | .lcReserved0110 | .lcRise0111 => true
  | .lcFall1000 | .lcReserved1001 | .lcNop1010 | .lcStop => true
  | .lcReserved1100 | .lcFall1101 | .lcStart | .lcNop1111 => true
  | _ => false

/-- Several operations one after another, up to the first stop. -/
def runAll : List Instr → State → Host.Outcome State Fault Refusal
  | [], s => .next s
  | i :: rest, s =>
    match exec i s with
    | .next t => runAll rest t
    | .fault e => .fault e
    | .refused e => .refused e

/-- The bytes that the byte requests among some operations return, in order, up to the first stop. -/
def bytesReturned : List Instr → State → List Byte
  | [], _ => []
  | i :: rest, s =>
    match exec i s with
    | .next t =>
      match i, t.ret with
      | .evByteReq, .byte b => b :: bytesReturned rest t
      | _, _ => bytesReturned rest t
    | .fault _ => []
    | .refused _ => []

/-- The reply to mode byte `m` at counter value `q`: payload, mode id, counter, checksum of these fourteen
(30_encoding.md R69, 41_mode_table.md R106). -/
def replyTo (m q : Byte) : ReplyFrame :=
  let body : Checked := (lookup m).1 ++ (#v[(lookup m).2, q] : Vector Byte 2)
  body ++ (#v[checksum body.toList] : Vector Byte 1)

/-- One full cycle of the sequencer, 26 steps (43_dispatch_variants.md R141, R151). -/
def sequencerCycle : List Instr :=
  [.sqPoll] ++ (List.finRange 9).map .sqRead ++ [.sqCompose] ++ (List.finRange 15).map .sqWrite

end Sys2Proof.Machine
end

