-- ==== Sys2Proof/Certificates/Slice0/Obligations.lean ====
section
/-! DEFINITION. The statements about the model. Each docstring names the rule or the log entry behind it. -/

open Sys2Proof Sys2Proof.Machine

/-! ### Decoding -/

/-- Decode and encode agree, for every well-formed operation and every operand value. For the formats FN and CTL,
which the spec gives no encoding, this is about the model's own numbers (log 6). -/
def Obligations.DecodeOfEncodeIsTheOperation : Prop :=
  ∀ i : Instr, i.wellFormed = true → decode (encode i) = .ok i

/-- Every packet has one meaning: a packet that decodes is the encoding of what it decodes to, and what it
decodes to is well formed. For the formats FN and CTL this is about the model's own numbers (log 6). -/
def Obligations.EncodeOfDecodeIsThePacket : Prop :=
  ∀ (p : Packet) (i : Instr), decode p = .ok i → encode i = p ∧ i.wellFormed = true

/-- A word of each encoded format, written out from its encoding table (30_encoding.md). -/
def Obligations.WrittenWordsDecode : Prop :=
  decode ⟨.ab, [0b00001000]⟩ = .ok .addrW ∧
  decode ⟨.ab, [0b00001010]⟩ = .ok (.addrOther 0b0000101 false) ∧
  decode ⟨.rq0, [0b00000100]⟩ = .ok .modeChallenge ∧
  decode ⟨.ew, [0b00000011, 0b101]⟩ = .ok (.evByteRx 0x03 true) ∧
  decode ⟨.lc, [0b1110]⟩ = .ok .lcStart ∧
  decode ⟨.sq, [0b111110]⟩ = .ok (.sqWrite 14)

/-- 30_encoding.md R67 and R70: the rows that an address byte and a request byte 0 select, and the entry of
the mode table behind each. -/
def Obligations.AddressAndModeBytesSelectTheirRow : Prop :=
  decodeAB 0x08 = .addrW ∧ decodeAB 0x09 = .addrR ∧
  (∀ b : Byte, b ≠ 0x08 → b ≠ 0x09 →
    ∃ addr rw, decodeAB b = .addrOther addr rw ∧ addr ++ BitVec.ofBool rw = b) ∧
  decodeRQ0 0x01 = .modeNormal ∧ decodeRQ0 0x03 = .modeIdentify ∧ decodeRQ0 0x04 = .modeChallenge ∧
  decodeRQ0 0x05 = .modeSerial ∧
  (∀ m : Byte, m ≠ 1 → m ≠ 3 → m ≠ 4 → m ≠ 5 → decodeRQ0 m = .modeFallback m) ∧
  (∀ m : Byte, (lookup m).1 = romPayload (if m = 3 then 1 else if m = 4 then 2 else if m = 5 then 3 else 0)) ∧
  (∀ m : Byte, (lookup m).2 = if m = 3 then 3 else if m = 4 then 4 else if m = 5 then 5 else 1)

/-- The sixteen rows of 30_encoding.md R80 follow from what a start, a stop and an edge are
(44_byte_engine.md R167, R168, R177, R180). -/
def Obligations.LineCodesFollowTheEdges : Prop :=
  ∀ sclQ sdaQ scl sda : Bool,
    (decodeLC (lineCode sclQ sdaQ scl sda) = .lcStart ↔ sclQ ∧ scl ∧ sdaQ ∧ ¬ sda) ∧
    (decodeLC (lineCode sclQ sdaQ scl sda) = .lcStop ↔ sclQ ∧ scl ∧ ¬ sdaQ ∧ sda) ∧
    (decodeLC (lineCode sclQ sdaQ scl sda) ∈ [Instr.lcRise0010, .lcRise0111] ↔
      ¬ sclQ ∧ scl ∧ sdaQ = sda) ∧
    (decodeLC (lineCode sclQ sdaQ scl sda) ∈ [Instr.lcFall1000, .lcFall1101] ↔
      sclQ ∧ ¬ scl ∧ sdaQ = sda) ∧
    (decodeLC (lineCode sclQ sdaQ scl sda) ∈
        [Instr.lcReserved0011, .lcReserved0110, .lcReserved1001, .lcReserved1100] ↔
      sclQ ≠ scl ∧ sdaQ ≠ sda)

/-- 30_encoding.md R84: every code, the reserved ones too. -/
def Obligations.SequencerCodesDecode : Prop :=
  decodeSQ 0x00 = some .sqPoll ∧
  (∀ k : Fin 9, decodeSQ (0x10 + BitVec.ofNat 6 k.val) = some (.sqRead k)) ∧
  decodeSQ 0x20 = some .sqCompose ∧
  (∀ k : Fin 15, decodeSQ (0x30 + BitVec.ofNat 6 k.val) = some (.sqWrite k)) ∧
  (∀ c : BitVec 6, (0x01 ≤ c ∧ c ≤ 0x0F) ∨ (0x19 ≤ c ∧ c ≤ 0x1F) ∨ (0x21 ≤ c ∧ c ≤ 0x2F) ∨ c = 0x3F →
    decodeSQ c = none)

/-! ### The step -/

/-- A step takes the next input and runs what it decodes to; the rest of the inputs stay (log 5). -/
def Obligations.StepRunsTheDecodedOperation : Prop :=
  ∀ (s : State) (p : Packet) (rest : List Packet) (i : Instr),
    s.input = p :: rest → decode p = .ok i → i.wellFormed = true →
    step s = exec i { s with input := rest }

/-- The model's own choices (logs 5, 8): with no input left the machine rests, an input that decodes to
nothing is refused with the decoder's reason, and a table word placed for the fetch is what the next step
runs, with what it needs selected. -/
def Obligations.StepRestsRefusesOrRunsThePlacedWord : Prop :=
  (∀ s : State, s.input = [] → step s = .next s) ∧
  (∀ (s : State) (p : Packet) (rest : List Packet) (e : DecodeError),
    s.input = p :: rest → decode p = .error e → step s = .refused (.undecodable e)) ∧
  (∀ (s : State) (nbits w : Nat) (i : Instr),
    decodeTableWord nbits w = some i → step (s.withFetchWord nbits w) = exec i (selectFor i s))

/-! ### Reset -/

/-- 70_reset_and_hazards.md R237: what stands after reset. -/
def Obligations.ResetStateIsIdle : Prop :=
  State.reset.frameSeq = 0 ∧ State.reset.phase = .idle ∧ State.reset.rxHead = 0 ∧ State.reset.txHead = 0 ∧
  State.reset.rxOvf = false ∧ State.reset.txOvf = false ∧ State.reset.diag = [] ∧
  State.reset.rep = State.reset.cfg.replyReset ∧
  State.reset.be = .idle ∧ State.reset.bitcnt = 0 ∧ State.reset.matched = false ∧
  State.reset.firstPending = false ∧ State.reset.hold = .none ∧
  State.reset.sdaOut = true ∧ State.reset.sclOut = true ∧ State.reset.sclQ = true ∧ State.reset.sdaQ = true ∧
  State.reset.rxq = [] ∧ State.reset.txq = [] ∧ State.reset.seqState = .poll

/-- 70_reset_and_hazards.md R236: `RESET` completes from every state and installs every value of the table;
of `req`, `sr`, `rw`, `nack` nothing is said. The parameters stay. -/
def Obligations.ResetInstallsTheTable : Prop :=
  ∀ s : State, ∃ t : State, exec .reset s = .next t ∧
    t.frameSeq = 0 ∧ t.rxHead = 0 ∧ t.txHead = 0 ∧ t.phase = .idle ∧ t.rxOvf = false ∧ t.txOvf = false ∧
    t.diag = [] ∧ t.rxq = [] ∧ t.txq = [] ∧ t.seqState = .poll ∧ t.rep = s.cfg.replyReset ∧
    t.be = .idle ∧ t.bitcnt = 0 ∧ t.matched = false ∧ t.firstPending = false ∧ t.hold = .none ∧
    t.sdaOut = true ∧ t.sclOut = true ∧ t.sclQ = true ∧ t.sdaQ = true ∧ t.cfg = s.cfg

/-! ### The Frame Codec -/

/-- 40_frame_codec.md R96: the fold, and that `CHECKSUM` returns it and changes nothing else. -/
def Obligations.ChecksumIsTheFold : Prop :=
  checksum [] = 0 ∧
  (∀ (l : List Byte) (b : Byte), checksum (l ++ [b]) = (checksum l ^^^ b) + 1) ∧
  (∀ (b : Checked) (s : State), exec (.checksum b) s = .next { s with ret := .byte (checksum b.toList) })

/-- 40_frame_codec.md R103: a step of the fold is a bijection in either argument, a changed byte always
changes the checksum, and a frame with one corrupted byte among bytes 0..13 never passes the check. -/
def Obligations.ChecksumSeesEverySingleByte : Prop :=
  (∀ b : Byte, Function.Bijective fun acc => foldByte acc b) ∧
  (∀ acc : Byte, Function.Bijective fun b => foldByte acc b) ∧
  (∀ (before after : List Byte) (b c : Byte), b ≠ c →
    checksum (before ++ b :: after) ≠ checksum (before ++ c :: after)) ∧
  (∀ (f : ReplyFrame) (i : Fin 14) (c : Byte), passesCheck f = true → c ≠ f[i.val] →
    passesCheck (f.set i.val c) = false)

/-- 40_frame_codec.md R94: byte 13 gets the counter as it was, the counter goes up by one modulo 256. -/
def Obligations.SeqStampWritesThenIncrements : Prop :=
  ∀ (f : ReplyFrame) (s : State),
    exec (.seqStamp f) s = .next { s with frameSeq := s.frameSeq + 1, ret := .frame (f.set 13 s.frameSeq) }

/-- 40_frame_codec.md R91: the fifteen bytes of the built reply, and the counter; nothing else changes. -/
def Obligations.BuildReplyAssemblesTheFrame : Prop :=
  ∀ (payload : Payload) (echo : Byte) (s : State),
    ∃ f : ReplyFrame,
      exec (.buildReply payload echo) s = .next { s with frameSeq := s.frameSeq + 1, ret := .frame f } ∧
      (∀ i : Fin 12, f[i.val] = payload[i.val]) ∧ f[12] = echo ∧ f[13] = s.frameSeq ∧
      f[14] = checksum (f.toList.take 14)

/-- 40_frame_codec.md R102: byte 14 in closed form, by mode. -/
def Obligations.ChecksumClosedFormPerMode : Prop :=
  ∀ s : State, ∃ t : State, exec .compose s = .next t ∧
    t.rep[14] =
      ((if s.req[0] = 3 then 0x49 else if s.req[0] = 4 then 0x8F else if s.req[0] = 5 then 0x26 else 0x0C)
        ^^^ s.frameSeq) + 1

/-- 40_frame_codec.md R101 (c): two replies to one request differ in bytes 13 and 14 only. -/
def Obligations.SameRequestSamePayload : Prop :=
  ∀ s : State, ∃ t u : State, exec .compose s = .next t ∧ exec .compose t = .next u ∧
    (∀ i : Fin 13, u.rep[i.val] = t.rep[i.val]) ∧ u.rep[13] = t.rep[13] + 1 ∧ u.rep[14] ≠ t.rep[14] ∧
    passesCheck t.rep = true ∧ passesCheck u.rep = true

/-! ### The Mode Table -/

/-- 41_mode_table.md R105: the four payloads, byte for byte, at their places in `ROM`, and the ids; `ROM` is
the same in every state. -/
def Obligations.RomHoldsTheFourPayloads : Prop :=
  (romPayload 0).toList = [0xFF, 0xFF, 0, 0, 0, 0, 0, 0, 0, 0, 0, 0] ∧
  (romPayload 1).toList = [0x48, 0x61, 0x6E, 0x64, 0x72, 0x61, 0x64, 0x20, 0x30, 0x30, 0x30, 0x31] ∧
  (romPayload 2).toList = [0x3B, 0x59, 0xE8, 0x2A, 0xE9, 0xB1, 0xBE, 0xD8, 0, 0, 0, 0] ∧
  (romPayload 3).toList = [0x41, 0x42, 0x43, 0x44, 0x31, 0x32, 0x33, 0x34, 0x35, 0x36, 0x37, 0x38] ∧
  modeId 0 = 1 ∧ modeId 1 = 3 ∧ modeId 2 = 4 ∧ modeId 3 = 5 ∧
  (∀ (s : State) (sel : Fin 4) (i : Fin 12),
    memRead .rom (12 * sel.val + i.val) s = .ok (romPayload sel)[i.val])

/-- 41_mode_table.md R106: `LOOKUP` returns the selected payload and id for every byte, without any other
effect. -/
def Obligations.LookupSelectsAnEntry : Prop :=
  ∀ (m : Byte) (s : State),
    exec (.lookup m) s = .next
      { s with
        ret :=
          if m = 3 then .selected (romPayload 1) 3
          else if m = 4 then .selected (romPayload 2) 4
          else if m = 5 then .selected (romPayload 3) 5
          else .selected (romPayload 0) 1 }

/-- 41_mode_table.md R107 to R111: the five rows of request byte 0. -/
def Obligations.ModeRowsReturnTheirEntry : Prop :=
  ∀ s : State,
    exec .modeNormal s = .next
      { s with ret := .selected #v[0xFF, 0xFF, 0, 0, 0, 0, 0, 0, 0, 0, 0, 0] 1 } ∧
    exec .modeIdentify s = .next
      { s with ret := .selected #v[0x48, 0x61, 0x6E, 0x64, 0x72, 0x61, 0x64, 0x20, 0x30, 0x30, 0x30, 0x31] 3 } ∧
    exec .modeChallenge s = .next
      { s with ret := .selected #v[0x3B, 0x59, 0xE8, 0x2A, 0xE9, 0xB1, 0xBE, 0xD8, 0, 0, 0, 0] 4 } ∧
    exec .modeSerial s = .next
      { s with ret := .selected #v[0x41, 0x42, 0x43, 0x44, 0x31, 0x32, 0x33, 0x34, 0x35, 0x36, 0x37, 0x38] 5 } ∧
    (∀ m : Byte, exec (.modeFallback m) s = .next
      { s with ret := .selected #v[0xFF, 0xFF, 0, 0, 0, 0, 0, 0, 0, 0, 0, 0] 1 })

/-! ### The Transaction Tracker (variant B) -/

/-- 42_transaction_tracker.md R119, R120 and 44_byte_engine.md R174, R176: the two cursor events, and that
every start and every stop condition on the bus, in every state of the engine, sets the engine and, in
variant B only, is that event. Nothing else changes. -/
def Obligations.StartAndStopResetEngineAndCursors : Prop :=
  ∀ s : State,
    (s.cfg.variant = .bEvent →
      exec .evStart s = .next { s with rxHead := 0, txHead := 0, phase := .receiving } ∧
      exec .evStop s = .next { s with rxHead := 0, txHead := 0, phase := .idle } ∧
      exec .lcStart s = .next
        { s with be := .addr, bitcnt := 0, matched := false, firstPending := false, sdaOut := true,
                 rxHead := 0, txHead := 0, phase := .receiving } ∧
      exec .lcStop s = .next
        { s with be := .idle, bitcnt := 0, matched := false, firstPending := false, sdaOut := true,
                 rxHead := 0, txHead := 0, phase := .idle }) ∧
    (s.cfg.variant = .aPolled →
      exec .lcStart s = .next
        { s with be := .addr, bitcnt := 0, matched := false, firstPending := false, sdaOut := true } ∧
      exec .lcStop s = .next
        { s with be := .idle, bitcnt := 0, matched := false, firstPending := false, sdaOut := true })

/-- 42_transaction_tracker.md R121, R123 and the rows of R131 that store without composing: a byte below the
ninth is stored at the cursor, or at `req[0]` whatever the cursor was when `first` is set; every other byte of
memory reads as before. -/
def Obligations.ReceivedByteIsStoredAtTheCursor : Prop :=
  ∀ (s : State) (d : Byte) (first : Bool) (r : Fin 8), s.cfg.variant = .bEvent →
    (first = true ∧ r = 0) ∨ (first = false ∧ s.rxHead = BitVec.ofNat 4 r.val) →
    ∃ t : State, exec (.evByteRx d first) s = .next t ∧
      t = { s with req := s.req.set r.val d, rxHead := BitVec.ofNat 4 (r.val + 1), phase := .receiving } ∧
      memRead .req r.val t = .ok d ∧
      (∀ (space : Space) (i : Nat), ¬ (space = .req ∧ i = r.val) → memRead space i t = memRead space i s)

/-- 42_transaction_tracker.md R128: the ninth byte completes the request and composes inside the same event. -/
def Obligations.NinthByteComposes : Prop :=
  ∀ (s : State) (d : Byte), s.cfg.variant = .bEvent → s.rxHead = 8 →
    exec (.evByteRx d false) s = .next
      { s with req := s.req.set 8 d, rep := replyTo s.req[0] s.frameSeq, rxHead := 9,
               frameSeq := s.frameSeq + 1, phase := .receiving }

/-- 60_exceptions.md R208 and 42_transaction_tracker.md R124: the tenth byte is discarded and reported. -/
def Obligations.TenthByteIsRequestOverflow : Prop :=
  ∀ (s : State) (d : Byte), s.cfg.variant = .bEvent → s.rxHead = 9 →
    exec (.evByteRx d false) s = .next
      { s with rxHead := 0, rxOvf := true, diag := s.diag ++ [.requestOverflow], phase := .receiving }

/-- 42_transaction_tracker.md R126: a byte request below 15 returns the byte at the cursor and moves it by one;
fifteen of them after a start return the fifteen bytes of `rep` in order, leave the cursor at 15 and `rep` as
it was. -/
def Obligations.RequestedBytesAreTheReplyInOrder : Prop :=
  ∀ s : State, s.cfg.variant = .bEvent →
    (∀ k : Fin 15, s.txHead = BitVec.ofNat 4 k.val → exec .evByteReq s = .next
      { s with txHead := BitVec.ofNat 4 (k.val + 1), phase := .replying, ret := .byte s.rep[k.val] }) ∧
    bytesReturned (.evStart :: List.replicate 15 .evByteReq) s = s.rep.toList ∧
    ∃ t : State, runAll (.evStart :: List.replicate 15 .evByteReq) s = .next t ∧
      t.txHead = 15 ∧ t.rep = s.rep

/-- 42_transaction_tracker.md R127: the byte request that finds the cursor at 15 resets it, is reported, and
returns a free value; the requests after it return `rep[0]`, `rep[1]` and so on. The counter of draws is the
model's (log 3). -/
def Obligations.SixteenthRequestIsReplyOverflow : Prop :=
  ∀ s : State, s.cfg.variant = .bEvent → s.txHead = 15 →
    (∃ out : Byte, exec .evByteReq s = .next
      { s with txHead := 0, phase := .replying, txOvf := true, diag := s.diag ++ [.replyOverflow],
               draws := s.draws + 1, ret := .byte out }) ∧
    (bytesReturned (List.replicate 16 .evByteReq) s).tail = s.rep.toList

/-- 42_transaction_tracker.md R129. -/
def Obligations.ComposeWritesTheReply : Prop :=
  ∀ s : State,
    exec .compose s = .next { s with rep := replyTo s.req[0] s.frameSeq, frameSeq := s.frameSeq + 1 }

/-- 42_transaction_tracker.md R132, R138: from every state, whatever was aborted before, one request script
`REQ[b0..b8]` is stored whole and composes one reply, which the stop at its end leaves. -/
def Obligations.RequestScriptComposesOneReply : Prop :=
  ∀ (s : State) (b : RequestFrame), s.cfg.variant = .bEvent →
    runAll (scriptEvents .no (reqScript b)) s = .next
      { s with req := b, rep := replyTo b[0] s.frameSeq, frameSeq := s.frameSeq + 1, rxHead := 0, txHead := 0,
               phase := .idle }

/-- The model's own choice (log 12): an operation of the variant that the device is not is refused by name. -/
def Obligations.TheOtherVariantsOperationsAreRefused : Prop :=
  (∀ s : State, s.cfg.variant = .aPolled →
    exec .evStart s = .refused .absentInVariantA ∧ exec .evStop s = .refused .absentInVariantA ∧
    (∀ (d : Byte) (first : Bool), exec (.evByteRx d first) s = .refused .absentInVariantA) ∧
    exec .evByteReq s = .refused .absentInVariantA) ∧
  (∀ s : State, s.cfg.variant = .bEvent →
    exec .sqPoll s = .refused .absentInVariantB ∧ exec .sqCompose s = .refused .absentInVariantB ∧
    (∀ k : Fin 9, exec (.sqRead k) s = .refused .absentInVariantB) ∧
    (∀ k : Fin 15, exec (.sqWrite k) s = .refused .absentInVariantB) ∧
    exec .beResume s = .refused .absentInVariantB)

/-- 30_encoding.md R78 and R81: the reserved event words and line codes are refused, in every state. -/
def Obligations.ReservedCodesAreRefused : Prop :=
  ∀ s : State,
    (∀ low : BitVec 9, exec (.ewReservedStart low) s = .refused .reservedEventWord) ∧
    (∀ low : BitVec 9, exec (.ewReservedStop low) s = .refused .reservedEventWord) ∧
    (∀ low : BitVec 9, exec (.ewReservedReq low) s = .refused .reservedEventWord) ∧
    exec .lcReserved0011 s = .refused .reservedLineCode ∧
    exec .lcReserved0110 s = .refused .reservedLineCode ∧
    exec .lcReserved1001 s = .refused .reservedLineCode ∧
    exec .lcReserved1100 s = .refused .reservedLineCode

/-! ### The sequencer (variant A) -/

/-- 43_dispatch_variants.md R143: the poll leaves when enough bytes are there, takes none, and waits
otherwise. That a wait is a step to the same state is the model's (log 11). -/
def Obligations.PollLeavesWhenEnoughBytes : Prop :=
  ∀ s : State, s.cfg.variant = .aPolled →
    (s.seqState = .poll → s.cfg.pollThreshold ≤ s.rxq.length →
      exec .sqPoll s = .next { s with seqState := .read 0 }) ∧
    (s.seqState ≠ .poll ∨ s.rxq.length < s.cfg.pollThreshold → exec .sqPoll s = .next s)

/-- 43_dispatch_variants.md R144: the oldest byte of `rxq` goes to `req[k]`, every other byte of memory reads
as before; the read waits while `rxq` is empty or the sequencer is elsewhere. That a wait is a step to the same
state is the model's (log 11). -/
def Obligations.ReadPopsIntoTheRequest : Prop :=
  ∀ (s : State) (k : Fin 9), s.cfg.variant = .aPolled →
    (∀ (d : Byte) (rest : List Byte), s.seqState = .read k → s.rxq = d :: rest →
      ∃ t : State, exec (.sqRead k) s = .next t ∧
        t = { s with req := s.req.set k.val d, rxq := rest,
                     seqState := if h : k.val = 8 then .compose else .read ⟨k.val + 1, by omega⟩ } ∧
        memRead .req k.val t = .ok d ∧
        (∀ (space : Space) (i : Nat), ¬ (space = .req ∧ i = k.val) →
          memRead space i t = memRead space i s)) ∧
    (s.seqState ≠ .read k ∨ s.rxq = [] → exec (.sqRead k) s = .next s)

/-- 43_dispatch_variants.md R145: the same compose, and never blocked in its own state. That a wait is a step
to the same state is the model's (log 11). -/
def Obligations.SequencerComposes : Prop :=
  ∀ s : State, s.cfg.variant = .aPolled →
    (s.seqState = .compose → exec .sqCompose s = .next
      { s with rep := replyTo s.req[0] s.frameSeq, frameSeq := s.frameSeq + 1, seqState := .write 0 }) ∧
    (s.seqState ≠ .compose → exec .sqCompose s = .next s)

/-- 43_dispatch_variants.md R146: byte `k` of the reply goes to `txq`; the write waits while `txq` is full or
the sequencer is elsewhere. That a wait is a step to the same state is the model's (log 11). -/
def Obligations.WritePushesTheReply : Prop :=
  ∀ (s : State) (k : Fin 15), s.cfg.variant = .aPolled →
    (s.seqState = .write k → s.txq.length < s.cfg.txqDepth → exec (.sqWrite k) s = .next
      { s with txq := s.txq ++ [s.rep[k.val]],
               seqState := if h : k.val = 14 then .poll else .write ⟨k.val + 1, by omega⟩ }) ∧
    (s.seqState ≠ .write k ∨ s.cfg.txqDepth ≤ s.txq.length → exec (.sqWrite k) s = .next s)

/-- 43_dispatch_variants.md R155, R156: for every request, the polled cycle over the nine received bytes and
the event handler over the nine received bytes end with the same request, reply and counter, and the bytes
the one hands to its queue, empty before and with room for a whole reply, are the bytes the other returns to the
fifteen byte requests. It says nothing of a full queue, of residual bytes, or of the wire. -/
def Obligations.TheTwoVariantsSendTheSameBytes : Prop :=
  ∀ (a b : State) (req : RequestFrame),
    a.cfg.variant = .aPolled → b.cfg.variant = .bEvent → a.frameSeq = b.frameSeq →
    a.cfg.Wf → 15 ≤ a.cfg.txqDepth → a.seqState = .poll → a.rxq = req.toList → a.txq = [] →
    ∃ a' b' : State,
      runAll sequencerCycle a = .next a' ∧ runAll (scriptEvents .no (reqScript req)) b = .next b' ∧
      a'.req = b'.req ∧ a'.rep = b'.rep ∧ a'.frameSeq = b'.frameSeq ∧
      a'.rxq = [] ∧ a'.seqState = .poll ∧
      a'.txq = bytesReturned (scriptEvents .no read15Script) b'

/-! ### The byte engine -/

/-- 44_byte_engine.md R181 to R184: what the three classes of address byte do, and that the decision at the
falling edge after the eighth bit takes the class of the byte in `sr`. -/
def Obligations.AddressByteDecidesTheEngine : Prop :=
  ∀ s : State,
    exec .addrW s = .next { s with matched := true, rw := false, firstPending := true, sdaOut := false } ∧
    exec .addrR s = .next { s with matched := true, rw := true, sdaOut := false } ∧
    (∀ (addr : BitVec 7) (rw : Bool), s.sdaOut = true →
      exec (.addrOther addr rw) s = .next { s with be := .wait }) ∧
    (∀ i : Instr, i = .lcFall1000 ∨ i = .lcFall1101 → s.be = .addr → s.bitcnt = 8 →
      (s.sr = 0x08 → exec i s = .next
        { s with matched := true, rw := false, firstPending := true, sdaOut := false }) ∧
      (s.sr = 0x09 → exec i s = .next { s with matched := true, rw := true, sdaOut := false }) ∧
      (s.sr ≠ 0x08 → s.sr ≠ 0x09 → s.sdaOut = true → exec i s = .next { s with be := .wait }))

/-- 44_byte_engine.md R173, R179, R180: the six codes without an edge, and the falling edges with nothing to
decide, change nothing; what a sample changes besides is in `SAMPLE`. -/
def Obligations.CodesWithNothingToDoChangeNothing : Prop :=
  ∀ s : State,
    exec .lcNop0000 s = .next s ∧ exec .lcNop0001 s = .next s ∧ exec .lcNop0100 s = .next s ∧
    exec .lcNop0101 s = .next s ∧ exec .lcNop1010 s = .next s ∧ exec .lcNop1111 s = .next s ∧
    ((s.be = .idle ∨ s.be = .wait ∨ ((s.be = .addr ∨ s.be = .rx) ∧ s.bitcnt ≤ 7) ∨
        (s.be = .tx ∧ s.bitcnt = 0)) →
      exec .lcFall1000 s = .next s ∧ exec .lcFall1101 s = .next s)

/-- 44_byte_engine.md R177 to R179: the two rising edges, by the bit they sample. -/
def Obligations.RisingEdgeSamplesABit : Prop :=
  ∀ (s : State) (sda : Bool) (i : Instr),
    (sda = false ∧ i = .lcRise0010) ∨ (sda = true ∧ i = .lcRise0111) →
    ((s.be = .addr ∨ s.be = .rx) → s.bitcnt ≤ 7 → exec i s = .next
      { s with sr := (s.sr <<< 1) ||| (if sda then 1 else 0), bitcnt := s.bitcnt + 1 }) ∧
    ((s.be = .addr ∨ s.be = .rx) → s.bitcnt = 8 → exec i s = .next { s with bitcnt := 9 }) ∧
    (s.be = .tx → s.bitcnt ≤ 7 → exec i s = .next { s with bitcnt := s.bitcnt + 1 }) ∧
    (s.be = .tx → s.bitcnt = 8 → exec i s = .next { s with nack := sda, bitcnt := 9 }) ∧
    ((s.be = .idle ∨ s.be = .wait) → exec i s = .next s)

/-- 44_byte_engine.md R185, R190: after the address acknowledge the engine receives, or fetches the first
byte to send: in variant B by emitting the byte request, in variant A from `txq`, or it holds. The bit count in
the hold is the model's reading (log 13). -/
def Obligations.AddressAckLeadsToDataOrFetch : Prop :=
  ∀ (s : State) (i : Instr), i = .lcFall1000 ∨ i = .lcFall1101 → s.be = .addr → s.bitcnt = 9 →
    (s.rw = false → exec i s = .next { s with sdaOut := true, bitcnt := 0, be := .rx }) ∧
    (s.rw = true → s.cfg.variant = .bEvent →
      ∃ (t : State) (d : Byte), exec .evByteReq s = .next t ∧ t.ret = .byte d ∧
        exec i s = .next
          { t with ret := s.ret, be := .tx, sr := d, sdaOut := d.getLsbD 7, bitcnt := 0 }) ∧
    (∀ (d : Byte) (rest : List Byte), s.rw = true → s.cfg.variant = .aPolled → s.txq = d :: rest →
      exec i s = .next
        { s with be := .tx, txq := rest, sr := d, sdaOut := d.getLsbD 7, bitcnt := 0 }) ∧
    (s.rw = true → s.cfg.variant = .aPolled → s.txq = [] →
      exec i s = .next
        { s with be := .tx, sdaOut := true, bitcnt := 0, hold := .txqEmpty, sclOut := false })

/-- 44_byte_engine.md R186 to R188: the delivery of a received byte, and the end of its acknowledge. -/
def Obligations.FallingEdgeDeliversTheByte : Prop :=
  ∀ (s : State) (i : Instr), i = .lcFall1000 ∨ i = .lcFall1101 → s.be = .rx →
    (s.bitcnt = 8 → s.cfg.variant = .bEvent → s.rxHead ≤ 9 →
      ∃ t : State, exec (.evByteRx s.sr s.firstPending) s = .next t ∧
        exec i s = .next { t with firstPending := false, sdaOut := false }) ∧
    (s.bitcnt = 8 → s.cfg.variant = .aPolled → s.rxq.length < s.cfg.rxqDepth →
      exec i s = .next { s with rxq := s.rxq ++ [s.sr], firstPending := false, sdaOut := false }) ∧
    (s.bitcnt = 8 → s.cfg.variant = .aPolled → s.cfg.rxqDepth ≤ s.rxq.length →
      exec i s = .next { s with hold := .rxqFull, sclOut := false }) ∧
    (s.bitcnt = 9 → exec i s = .next { s with sdaOut := true, bitcnt := 0 })

/-- 44_byte_engine.md R190 to R193, R197: driving the bits of a byte, releasing SDA, and what the controller's
acknowledge leads to: no more, the next byte, or a hold. The bit count in the hold is the model's reading
(log 13). -/
def Obligations.FallingEdgeSendsTheByte : Prop :=
  ∀ (s : State) (i : Instr), i = .lcFall1000 ∨ i = .lcFall1101 → s.be = .tx →
    (∀ k : Nat, 1 ≤ k → k ≤ 7 → s.bitcnt = BitVec.ofNat 4 k →
      exec i s = .next { s with sdaOut := s.sr.getLsbD (7 - k) }) ∧
    (s.bitcnt = 8 → exec i s = .next { s with sdaOut := true }) ∧
    (s.bitcnt = 9 → s.nack = true → exec i s = .next { s with be := .wait, sdaOut := true, bitcnt := 0 }) ∧
    (s.bitcnt = 9 → s.nack = false → s.cfg.variant = .bEvent →
      ∃ (t : State) (d : Byte), exec .evByteReq s = .next t ∧ t.ret = .byte d ∧
        exec i s = .next { t with ret := s.ret, sr := d, sdaOut := d.getLsbD 7, bitcnt := 0 }) ∧
    (∀ (d : Byte) (rest : List Byte),
      s.bitcnt = 9 → s.nack = false → s.cfg.variant = .aPolled → s.txq = d :: rest →
      exec i s = .next { s with txq := rest, sr := d, sdaOut := d.getLsbD 7, bitcnt := 0 }) ∧
    (s.bitcnt = 9 → s.nack = false → s.cfg.variant = .aPolled → s.txq = [] →
      exec i s = .next { s with bitcnt := 0, hold := .txqEmpty, sclOut := false })

/-- 44_byte_engine.md R172: a sample inside the line rules takes the AND of the drives, remembers the lines, ends
a `HOLD_RELEASE`, and runs the row of its line code on that. One outside the line rules (R200,
70_reset_and_hazards.md R238) is refused, which of the two ways the spec leaves is the model's choice (log 16); one
in which both lines change is refused as a reserved line code. -/
def Obligations.SampleRunsItsLineCode : Prop :=
  ∀ (s : State) (sclC sdaC : Bool), s.rxHead ≤ 9 →
    (SampleSound sclC sdaC s →
      ∃ t : State, exec (.sample sclC sdaC) s = .next t ∧
        exec (decodeLC (lineCode s.sclQ s.sdaQ (sclC && s.sclOut) (sdaC && s.sdaOut)))
          { s with sclQ := (sclC && s.sclOut), sdaQ := (sdaC && s.sdaOut),
                   expect := (if s.sclQ && !(sclC && s.sclOut) then .sclLow
                              else if sclC && !(sclC && s.sclOut) then .kept sdaC else .anything),
                   sclOut := (if s.hold = .release then true else s.sclOut),
                   hold := (if s.hold = .release then .none else s.hold) } = .next t ∧
        t.sclQ = (sclC && s.sclOut) ∧ t.sdaQ = (sdaC && s.sdaOut)) ∧
    (¬ SampleSound sclC sdaC s → ∃ r : Refusal, exec (.sample sclC sdaC) s = .refused r) ∧
    ((sclC && s.sclOut) ≠ s.sclQ → (sdaC && s.sdaOut) ≠ s.sdaQ →
      exec (.sample sclC sdaC) s = .refused .reservedLineCode)

/-- 44_byte_engine.md R200 W2, W4, W5 and W6, as one sees them on the inputs: after a sample, what the next may not
be; and what no sample may be. That such an input is refused, and not left unconstrained, is the model's choice
(log 16). -/
def Obligations.InputOutsideTheLineRulesIsRefused : Prop :=
  (∀ (s t : State) (c d : Bool), s.EngineInv → exec (.sample c d) s = .next t →
    (s.sclQ = true → t.sclQ = false → ∀ d', ∃ r : Refusal, exec (.sample true d') t = .refused r) ∧
    (c = true → t.sclQ = false → ∀ c' d', c' = false ∨ d' ≠ d →
      ∃ r : Refusal, exec (.sample c' d') t = .refused r)) ∧
  (∀ s : State, s.sclOut = true → s.sdaOut = false →
    ∃ r : Refusal, exec (.sample true false) s = .refused r) ∧
  (∀ s : State, s.be = .tx → 1 ≤ s.bitcnt → s.bitcnt ≤ 8 → s.sclQ = true → s.sdaOut = true →
    ∃ r : Refusal, exec (.sample false false) s = .refused r)

/-- 70_reset_and_hazards.md R238: after `RESET`, in whatever state, the first sample of an idle bus completes and
changes nothing but the model's own note of it, and any other is refused. That it is refused is the ruling of
93_implementation_defined.md U15 (log 16). -/
def Obligations.ResetAwaitsAnIdleBus : Prop :=
  ∀ s : State, ∃ t : State, exec .reset s = .next t ∧
    exec (.sample true true) t = .next { t with expect := .anything } ∧
    (∀ c d : Bool, c = false ∨ d = false → ∃ r : Refusal, exec (.sample c d) t = .refused r)

/-- 44_byte_engine.md R198: the two ends of a hold, and that `BE_RESUME` waits where it is not enabled. That a
wait is a step to the same state is the model's (log 11). -/
def Obligations.ResumeEndsAHold : Prop :=
  ∀ s : State, s.cfg.variant = .aPolled →
    (s.hold = .rxqFull → s.rxq.length < s.cfg.rxqDepth → exec .beResume s = .next
      { s with rxq := s.rxq ++ [s.sr], firstPending := false, sdaOut := false, hold := .release }) ∧
    (∀ (d : Byte) (rest : List Byte), s.hold = .txqEmpty → s.txq = d :: rest → exec .beResume s = .next
      { s with txq := rest, sr := d, sdaOut := d.getLsbD 7, bitcnt := 0, hold := .release }) ∧
    (¬ (s.hold = .rxqFull ∧ s.rxq.length < s.cfg.rxqDepth) → ¬ (s.hold = .txqEmpty ∧ s.txq ≠ []) →
      exec .beResume s = .next s)

/-- 44_byte_engine.md R201: while the device pulls SDA low no sample is a start or a stop condition. -/
def Obligations.NoConditionWhileSdaIsHeld : Prop :=
  ∀ (s : State) (sclC sdaC : Bool), s.EngineInv → s.sdaOut = false →
    decodeLC (lineCode s.sclQ s.sdaQ (sclC && s.sclOut) (sdaC && s.sdaOut)) ≠ .lcStart ∧
    decodeLC (lineCode s.sclQ s.sdaQ (sclC && s.sclOut) (sdaC && s.sdaOut)) ≠ .lcStop

/-- 44_byte_engine.md R202: the bounds of the outputs and of `first_pending` hold in every state with the engine's
invariant, and after every operation but the rows that run only inside a sample. -/
def Obligations.EngineInvariantBoundsTheOutputs : Prop :=
  (∀ s : State, s.EngineInv → s.OutputsBounded) ∧
  (∀ (i : Instr) (s t : State), onlyInsideSample i = false → s.Inv → s.EngineInv → exec i s = .next t →
    t.OutputsBounded)

/-- 10_state.md R25, 44_byte_engine.md R202: `first_pending` is set by nothing but the decision for the device's
own address and a write. -/
def Obligations.FirstPendingComesFromTheWriteAddress : Prop :=
  ∀ (i : Instr) (s t : State), exec i s = .next t → s.firstPending = false → t.firstPending = true →
    i = .addrW ∨
    ((i = .lcFall1000 ∨ i = .lcFall1101 ∨ ∃ sclC sdaC, i = .sample sclC sdaC) ∧
      s.be = .addr ∧ s.bitcnt = 8 ∧ s.sr = 0x08)

/-- 44_byte_engine.md R203, the row `W xx` of variant B: clocking the eight bits of a byte and its acknowledge
is one `EV_BYTE_RX` of that byte, with the `first` flag pending, and an ACK. `expect` is the model's (log 16). -/
def Obligations.ByteClockedInIsOneEvent : Prop :=
  ∀ (s t : State) (x : Byte),
    s.cfg.variant = .bEvent → s.be = .rx → s.bitcnt = 0 → s.sclQ = false → s.sdaOut = true →
    s.sclOut = true → s.hold = .none → (s.expect = .sclLow ∨ s.expect = .anything) →
    exec (.evByteRx x s.firstPending) s = .next t →
    runAll (writeByteSamples x) s = .next
      { t with sr := x, firstPending := false, sdaQ := false, expect := .sclLow }

/-- 44_byte_engine.md R203, the row `W xx` of variant A: the same clocks push the byte, with an ACK, while
`rxq` has room. `expect` is the model's (log 16). -/
def Obligations.ByteClockedInIsOnePush : Prop :=
  ∀ (s : State) (x : Byte),
    s.cfg.variant = .aPolled → s.be = .rx → s.bitcnt = 0 → s.sclQ = false → s.sdaOut = true →
    s.sclOut = true → s.hold = .none → (s.expect = .sclLow ∨ s.expect = .anything) →
    s.rxq.length < s.cfg.rxqDepth →
    runAll (writeByteSamples x) s = .next
      { s with rxq := s.rxq ++ [x], sr := x, firstPending := false, sdaQ := false, expect := .sclLow }

/-- 44_byte_engine.md R191 to R193: a byte loaded for sending is seen on SDA bit by bit, bit 7 first, at the
eight rising edges, and a NACK in the ninth clock ends sending. `expect` is the model's (log 16). -/
def Obligations.ByteClockedOutIsTheByte : Prop :=
  ∀ s : State, s.be = .tx → s.bitcnt = 0 → s.sclQ = false → s.sdaOut = s.sr.getLsbD 7 →
    s.sclOut = true → s.hold = .none → (s.expect = .sclLow ∨ s.expect = .anything) →
    (∀ k : Fin 8, ∃ t : State,
      runAll ((List.replicate k.val (clockSamples true)).flatten ++ [.sample false true, .sample true true]) s
        = .next t ∧ t.sclQ = true ∧ t.sdaQ = s.sr.getLsbD (7 - k.val)) ∧
    runAll (readByteSamples true) s = .next
      { s with be := .wait, nack := true, bitcnt := 0, sdaOut := true, sdaQ := true, expect := .sclLow }

/-! ### The whole machine -/

/-- Reset has the machine's invariant and the engine's; what that says of `expect` is the model's (log 16). -/
def Obligations.ResetHasTheInvariants : Prop :=
  State.reset.Inv ∧ State.reset.EngineInv

/-- Every step keeps the machine's invariant, whatever the input (10_state.md R34, R40,
60_exceptions.md R207, 40_frame_codec.md R101, 41_mode_table.md R112). -/
def Obligations.EveryStepKeepsTheInvariant : Prop :=
  ∀ s t : State, s.Inv → step s = .next t → t.Inv

/-- Every operation but the rows that run only inside a sample keeps the engine's invariant
(44_byte_engine.md R201, R202); what that says of `expect` is the model's (log 16). -/
def Obligations.EveryOwnStepKeepsTheEngineInvariant : Prop :=
  ∀ (i : Instr) (s t : State), onlyInsideSample i = false → s.Inv → s.EngineInv →
    exec i s = .next t → t.EngineInv

/-- 20_memory.md R62: no access can fault. -/
def Obligations.NoStepFaults : Prop :=
  ∀ (s : State) (e : Fault), s.Inv → step s ≠ .fault e

/-- An operation completes unless its row is reserved, it is a sample outside the line rules (44_byte_engine.md R200,
log 16), or it belongs to the other variant (log 12). Three parts of this are the model's: that a
sequencer step or `BE_RESUME` completes where it is not enabled (43_dispatch_variants.md R142, 44_byte_engine.md R198),
a wait being a step to the same state (log 11); that `LC_RISE` completes with `bitcnt` above 8, which no run reaches
(log 14); and that a row the device runs only from inside another completes by itself (logs 9, 27). -/
def Obligations.EveryOtherOperationCompletes : Prop :=
  ∀ (i : Instr) (s : State), s.rxHead ≤ 9 →
    (∀ low, i ≠ .ewReservedStart low ∧ i ≠ .ewReservedStop low ∧ i ≠ .ewReservedReq low) →
    i ≠ .lcReserved0011 → i ≠ .lcReserved0110 → i ≠ .lcReserved1001 → i ≠ .lcReserved1100 →
    (∀ sclC sdaC, i = .sample sclC sdaC → SampleSound sclC sdaC s) →
    (i = .evStart ∨ i = .evStop ∨ i = .evByteReq ∨ (∃ d first, i = .evByteRx d first) →
      s.cfg.variant = .bEvent) →
    (i = .sqPoll ∨ i = .sqCompose ∨ i = .beResume ∨ (∃ k, i = .sqRead k) ∨ (∃ k, i = .sqWrite k) →
      s.cfg.variant = .aPolled) →
    ∃ t : State, exec i s = .next t

/-- 10_state.md R33: no operation changes a parameter; and none touches the inputs to come (log 5). -/
def Obligations.NoOperationChangesTheParameters : Prop :=
  ∀ (i : Instr) (s t : State), exec i s = .next t → t.cfg = s.cfg ∧ t.input = s.input

/-- 10_state.md R17 to R19, 60_exceptions.md R213: only `RESET` clears a sticky flag or shortens `diag`, and
one operation reports at most one condition. -/
def Obligations.ReportsAreStickyAndSingle : Prop :=
  ∀ (i : Instr) (s t : State), i ≠ .reset → exec i s = .next t →
    (s.rxOvf = true → t.rxOvf = true) ∧ (s.txOvf = true → t.txOvf = true) ∧
    (t.diag = s.diag ∨ ∃ c : Condition, t.diag = s.diag ++ [c])

/-- 10_state.md R12, R15, 40_frame_codec.md R98: outside `RESET`, and `BUILD_REPLY` and `SEQ_STAMP` run by
themselves, `rep` and `frame_seq` change only together, by one composed reply stamped with the counter. -/
def Obligations.ReplyAndCounterChangeTogether : Prop :=
  ∀ (i : Instr) (s t : State), i ≠ .reset → (∀ p e, i ≠ .buildReply p e) → (∀ f, i ≠ .seqStamp f) →
    exec i s = .next t →
    (t.rep = s.rep ∧ t.frameSeq = s.frameSeq) ∨
    (t.rep = replyTo t.req[0] s.frameSeq ∧ t.frameSeq = s.frameSeq + 1)

/-- 20_memory.md R41, R44: a byte written is the byte read, every other byte of the three spaces stays, and
`ROM` and the indices outside a space take no write. -/
def Obligations.MemoryWriteChangesOneByte : Prop :=
  ∀ (space : Space) (i : Nat) (v : Byte) (s : State),
    (∀ t : State, memWrite space i v s = .ok t →
      memRead space i t = .ok v ∧
      ∀ (other : Space) (j : Nat), ¬ (other = space ∧ j = i) → memRead other j t = memRead other j s) ∧
    ((∃ t : State, memWrite space i v s = .ok t) ↔ (space = .req ∧ i < 9) ∨ (space = .rep ∧ i < 15))
end

