-- ==== Sys2Proof/Laws/Codec.lean ====
section
/-! SUPPORT. What the codec does, once: a step of the fold, the built reply, and what `compose` writes. -/

namespace Sys2Proof.Machine

theorem foldByte_inj_left {a a' b : Byte} (h : foldByte a b = foldByte a' b) : a = a' := by
  have e : a ^^^ b = a' ^^^ b := by simpa [foldByte] using h
  simpa [BitVec.xor_assoc] using congrArg (· ^^^ b) e

theorem foldByte_inj_right {a b b' : Byte} (h : foldByte a b = foldByte a b') : b = b' := by
  have e : a ^^^ b = a ^^^ b' := by simpa [foldByte] using h
  simpa [← BitVec.xor_assoc] using congrArg (a ^^^ ·) e

theorem foldl_foldByte_inj (l : List Byte) {a a' : Byte} (h : l.foldl foldByte a = l.foldl foldByte a') :
    a = a' := by
  induction l generalizing a a' with
  | nil => exact h
  | cons x l ih => exact foldByte_inj_left (ih h)

/-- The built reply as one expression (40_frame_codec.md R91). -/
theorem buildReply_eq (p : Payload) (e : Byte) (s : State) :
    buildReply p e s =
      ((p ++ (#v[e, s.frameSeq] : Vector Byte 2)) ++
        (#v[checksum (p ++ (#v[e, s.frameSeq] : Vector Byte 2)).toList] : Vector Byte 1),
       { s with frameSeq := s.frameSeq + 1 }) := by
  rcases p with ⟨⟨l⟩, hl⟩
  match l, hl with
  | [_, _, _, _, _, _, _, _, _, _, _, _], _ => rfl

/-- All that `compose` changes (42_transaction_tracker.md R129). -/
theorem compose_eq (s : State) :
    compose s = { s with rep := replyTo s.req[0] s.frameSeq, frameSeq := s.frameSeq + 1 } := by
  simp only [compose, buildReply_eq]
  rfl

/-- Fourteen bytes closed by their own checksum pass the check (40_frame_codec.md R101). -/
theorem passesCheck_append (body : Checked) :
    passesCheck (body ++ (#v[checksum body.toList] : Vector Byte 1)) = true := by
  have range : checkedBytes (body ++ (#v[checksum body.toList] : Vector Byte 1)) = body.toList := by
    rw [checkedBytes, Vector.toList_append, List.take_left' (by simp)]
  have last : checksumByteOf (body ++ (#v[checksum body.toList] : Vector Byte 1)) = checksum body.toList := by
    rw [checksumByteOf, Vector.getElem_append_right _ (by omega)]
    rfl
  rw [passesCheck, range, last, beq_self_eq_true]

/-- The first twelve bytes of a frame assembled from its parts (40_frame_codec.md R92). -/
theorem payloadOf_append (p : Payload) (v : Vector Byte 2) (w : Vector Byte 1) :
    payloadOf (p ++ v ++ w) = p := by
  apply Vector.ext
  intro i hi
  simp only [payloadOf, Vector.getElem_ofFn]
  rw [Vector.getElem_append_left (by omega), Vector.getElem_append_left (by omega)]

/-- Byte 12 of a frame assembled from its parts (40_frame_codec.md R93). -/
theorem modeEchoOf_append (p : Payload) (e q : Byte) (w : Vector Byte 1) :
    modeEchoOf (p ++ (#v[e, q] : Vector Byte 2) ++ w) = e := by
  rw [modeEchoOf, Vector.getElem_append_left (by omega), Vector.getElem_append_right _ (by omega)]
  rfl

/-- Every reply of the table passes its own check, with the payload and the id of one entry
(40_frame_codec.md R101, 41_mode_table.md R112). -/
theorem composedReply_replyTo (m q : Byte) : composedReply (replyTo m q) :=
  ⟨passesCheck_append _, selOf m, payloadOf_append _ _ _, modeEchoOf_append _ _ _ _⟩

end Sys2Proof.Machine
end

