-- ==== Sys2Proof/Laws/Decode.lean ====
section
/-! SUPPORT. What the pieces of the decoder do: a list of bytes as a vector, and an encoded event word. -/

namespace Sys2Proof

theorem bytesVec?_toList {n : Nat} (v : Vector Byte n) : bytesVec? n v.toList = some v := by
  unfold bytesVec?
  simp
  rfl

theorem toList_of_bytesVec? {n : Nat} {l : List Byte} {v : Vector Byte n} (h : bytesVec? n l = some v) :
    v.toList = l := by
  unfold bytesVec? at h
  split at h
  · cases h; simp
  · cases h

/-- An encoded event word has three bits in its second byte, and they and the first byte are the word. -/
theorem decode_encodeEW (kind : BitVec 2) (low : BitVec 9) :
    decode (encodeEW kind low) = .ok (decodeEW (kind ++ low)) := by
  have small : ((0 : BitVec 5) ++ kind ++ BitVec.extractLsb' 8 1 low).toNat < 8 := by
    revert kind low; decide
  have word : (((0 : BitVec 5) ++ kind ++ BitVec.extractLsb' 8 1 low).extractLsb' 0 3 ++
      BitVec.extractLsb' 0 8 low : BitVec 11) = kind ++ low := by
    revert kind low; decide
  simp only [decode, encodeEW]
  rw [if_pos small]
  congr 2

end Sys2Proof
end

