-- ==== Sys2Proof/Laws/Engine.lean ====
section
/-! SUPPORT. What a sample does, by the two lines before and after it. -/

namespace Sys2Proof.Machine

/-- `s` with the lines of a sample remembered and a `HOLD_RELEASE` ended: steps 3 and 4 of
44_byte_engine.md R172. -/
def sampled (sclC sdaC : Bool) (s : State) : State :=
  releaseHold (rememberLines sclC sdaC s)

theorem runLine_eq_exec (c : BitVec 4) (s : State) : runLine (decodeLC c) s = exec (decodeLC c) s := by
  unfold decodeLC
  split <;> rfl

theorem changesBothLines_eq_false_iff (sclC sdaC : Bool) (s : State) :
    changesBothLines sclC sdaC s = false ↔ ((sclC && s.sclOut) = s.sclQ ∨ (sdaC && s.sdaOut) = s.sdaQ) := by
  simp [changesBothLines, wiredAnd, Classical.or_iff_not_imp_left]

theorem findsBusBusy_eq_false_iff (sclC sdaC : Bool) (s : State) :
    findsBusBusy sclC sdaC s = false ↔
      (s.expect = .idleBus → (sclC && s.sclOut) = true ∧ (sdaC && s.sdaOut) = true) := by
  simp [findsBusBusy, wiredAnd]

theorem releasesSclEarly_eq_false_iff (sclC : Bool) (s : State) :
    releasesSclEarly sclC s = false ↔ (s.expect = .sclLow → sclC = false) := by
  simp [releasesSclEarly]

theorem ignoresHold_eq_false_iff (sclC sdaC : Bool) (s : State) :
    ignoresHold sclC sdaC s = false ↔ (∀ sda, s.expect = .kept sda → sclC = true ∧ sdaC = sda) := by
  unfold ignoresHold
  split <;> simp_all

theorem drivesSdaAgainst_eq_false_iff (sclC sdaC : Bool) (s : State) :
    drivesSdaAgainst sclC sdaC s = false ↔
      ((sclC && s.sclOut) = true → s.sdaOut = false → sdaC = true) ∧
      (s.sclQ = true → (sclC && s.sclOut) = false → s.sdaOut = true → s.be = .tx → 1 ≤ s.bitcnt → s.bitcnt ≤ 8 →
        sdaC = true) := by
  unfold drivesSdaAgainst wiredAnd
  cases sdaC <;> cases (sclC && s.sclOut) <;> cases s.sdaOut <;> cases s.sclQ <;> simp

/-- The tests of a sample are the line rules. -/
theorem breach_eq_none_iff (sclC sdaC : Bool) (s : State) : breach sclC sdaC s = none ↔ SampleSound sclC sdaC s := by
  rw [SampleSound, ← changesBothLines_eq_false_iff, ← findsBusBusy_eq_false_iff, ← releasesSclEarly_eq_false_iff,
    ← ignoresHold_eq_false_iff, ← drivesSdaAgainst_eq_false_iff]
  unfold breach
  cases changesBothLines sclC sdaC s <;> cases findsBusBusy sclC sdaC s <;> cases releasesSclEarly sclC s <;>
    cases ignoresHold sclC sdaC s <;> cases drivesSdaAgainst sclC sdaC s <;> simp

theorem exec_sample_of_sound {sclC sdaC : Bool} {s : State} (h : SampleSound sclC sdaC s) :
    exec (.sample sclC sdaC) s =
      exec (decodeLC (lineCode s.sclQ s.sdaQ (sclC && s.sclOut) (sdaC && s.sdaOut))) (sampled sclC sdaC s) := by
  have e : exec (.sample sclC sdaC) s = execSample sclC sdaC s := rfl
  rw [e, execSample, (breach_eq_none_iff sclC sdaC s).mpr h]
  exact runLine_eq_exec _ _

theorem exec_sample_of_breach {sclC sdaC : Bool} {s : State} (h : ¬ SampleSound sclC sdaC s) :
    ∃ r, breach sclC sdaC s = some r ∧ exec (.sample sclC sdaC) s = .refused r := by
  cases hb : breach sclC sdaC s with
  | none => exact absurd ((breach_eq_none_iff sclC sdaC s).mp hb) h
  | some r =>
    have e : exec (.sample sclC sdaC) s = execSample sclC sdaC s := rfl
    exact ⟨r, rfl, by rw [e, execSample, hb]⟩

/-- A sample in which both lines change is refused as a reserved line code. -/
theorem exec_sample_of_two_edges {sclC sdaC : Bool} {s : State} (hc : (sclC && s.sclOut) ≠ s.sclQ)
    (hd : (sdaC && s.sdaOut) ≠ s.sdaQ) : exec (.sample sclC sdaC) s = .refused .reservedLineCode := by
  have e : exec (.sample sclC sdaC) s = execSample sclC sdaC s := rfl
  have b : breach sclC sdaC s = some .reservedLineCode := by
    simp [breach, changesBothLines, wiredAnd, hc, hd]
  rw [e, execSample, b]

theorem sampled_of_no_release {sclC sdaC : Bool} {s : State} (h : s.hold ≠ .release) :
    sampled sclC sdaC s = rememberLines sclC sdaC s := by
  simp [sampled, releaseHold, rememberLines, h]

theorem sampled_of_release {sclC sdaC : Bool} {s : State} (h : s.hold = .release) :
    sampled sclC sdaC s = { rememberLines sclC sdaC s with sclOut := true, hold := .none } := by
  simp [sampled, releaseHold, rememberLines, h]

/-- The kind of a sample inside the line rules, by the lines before it and the lines in it: its answer is one of
these, on the state `sampled`. -/
theorem exec_sample_cases {sclC sdaC : Bool} {s : State} (h : SampleSound sclC sdaC s) :
    (s.sclQ = (sclC && s.sclOut) ∧ (s.sclQ = false ∨ s.sdaQ = (sdaC && s.sdaOut)) ∧
      exec (.sample sclC sdaC) s = .next (sampled sclC sdaC s)) ∨
    (s.sclQ = false ∧ (sclC && s.sclOut) = true ∧ s.sdaQ = (sdaC && s.sdaOut) ∧
      exec (.sample sclC sdaC) s = .next (lcRise s.sdaQ (sampled sclC sdaC s))) ∨
    (s.sclQ = true ∧ (sclC && s.sclOut) = false ∧ s.sdaQ = (sdaC && s.sdaOut) ∧
      exec (.sample sclC sdaC) s = answer (lcFall (sampled sclC sdaC s))) ∨
    (s.sclQ = true ∧ (sclC && s.sclOut) = true ∧ s.sdaQ = true ∧ (sdaC && s.sdaOut) = false ∧
      exec (.sample sclC sdaC) s = .next (lcStart (sampled sclC sdaC s))) ∨
    (s.sclQ = true ∧ (sclC && s.sclOut) = true ∧ s.sdaQ = false ∧ (sdaC && s.sdaOut) = true ∧
      exec (.sample sclC sdaC) s = .next (lcStop (sampled sclC sdaC s))) := by
  rw [exec_sample_of_sound h]
  have w := h.1
  clear h
  revert w
  cases s.sclQ <;> cases s.sdaQ <;> cases (sclC && s.sclOut) <;> cases (sdaC && s.sdaOut) <;>
    simp [decodeLC, lineCode, exec, execLcNop0000, execLcNop0001, execLcNop0100, execLcNop0101, execLcNop1010,
      execLcNop1111, lcNop, execLcRise0010, execLcRise0111, execLcFall1000, execLcFall1101, execLcStart,
      execLcStop]

/-- A sample that answers a next state is inside the line rules. -/
theorem sound_of_exec_sample {sclC sdaC : Bool} {s t : State} (e : exec (.sample sclC sdaC) s = .next t) :
    SampleSound sclC sdaC s := by
  by_contra h
  obtain ⟨r, -, f⟩ := exec_sample_of_breach h
  rw [f] at e
  cases e

/-- A sample in which SCL stays low does no more than remember the lines. -/
theorem exec_sample_low {sclC sdaC : Bool} {s : State} (w : SampleSound sclC sdaC s) (h : s.sclQ = false)
    (hc : (sclC && s.sclOut) = false) : exec (.sample sclC sdaC) s = .next (sampled sclC sdaC s) := by
  rcases exec_sample_cases w with e | e | e | e | e <;> simp_all

/-- A rising edge of SCL; SDA is as it was. -/
theorem exec_sample_rise {sclC sdaC : Bool} {s : State} (w : SampleSound sclC sdaC s) (h : s.sclQ = false)
    (hc : (sclC && s.sclOut) = true) :
    exec (.sample sclC sdaC) s = .next (lcRise s.sdaQ (sampled sclC sdaC s)) := by
  obtain e | e | e | e | e := exec_sample_cases w
  all_goals first | exact e.2.2.2 | simp_all

/-- A falling edge of SCL; SDA is as it was. -/
theorem exec_sample_fall {sclC sdaC : Bool} {s : State} (w : SampleSound sclC sdaC s) (h : s.sclQ = true)
    (hc : (sclC && s.sclOut) = false) :
    exec (.sample sclC sdaC) s = answer (lcFall (sampled sclC sdaC s)) := by
  obtain e | e | e | e | e := exec_sample_cases w
  all_goals first | exact e.2.2.2 | simp_all

end Sys2Proof.Machine
end

