-- ==== Sys2Proof/Laws/Ops.lean ====
section
/-! SUPPORT. Each shared operation, once: memory, raising a condition, the variants, the fetch, one event. -/

namespace Sys2Proof.Machine

/-- A write that succeeds stores one byte of `REQ` or of `REP`. -/
theorem memWrite_cases {space : Space} {i : Nat} {v : Byte} {s t : State} (h : memWrite space i v s = .ok t) :
    (space = .req ∧ ∃ hi : i < 9, t = { s with req := s.req.set i v hi }) ∨
    (space = .rep ∧ ∃ hi : i < 15, t = { s with rep := s.rep.set i v hi }) := by
  cases space with
  | req =>
    simp only [memWrite] at h
    split at h
    · next hi => cases h; exact .inl ⟨rfl, hi, rfl⟩
    · cases h
  | rep =>
    simp only [memWrite] at h
    split at h
    · next hi => cases h; exact .inr ⟨rfl, hi, rfl⟩
    · cases h
  | rom => cases h

theorem raise_requestOverflow (s : State) :
    raise .requestOverflow s = { s with rxOvf := true, diag := s.diag ++ [.requestOverflow] } := rfl

theorem raise_replyOverflow (s : State) :
    raise .replyOverflow s = { s with txOvf := true, diag := s.diag ++ [.replyOverflow] } := rfl

/-- An operation of variant A that answers a next state ran in variant A. -/
theorem onlyInA_next {op : State → State} {s t : State} (h : onlyInA op s = .next t) :
    s.cfg.variant = .aPolled ∧ t = op s := by
  unfold onlyInA at h
  split at h
  · next hv => cases h; exact ⟨hv, rfl⟩
  · cases h

theorem answer_next {r : Except Fault State} {t : State} (h : answer r = .next t) : r = .ok t := by
  cases r with
  | ok s => cases h; rfl
  | error e => cases h

/-- An operation of variant B that answers a next state ran in variant B. -/
theorem onlyInB_next {op : State → Except Fault State} {s t : State} (h : onlyInB op s = .next t) :
    s.cfg.variant = .bEvent ∧ op s = .ok t := by
  unfold onlyInB at h
  split at h
  · next hv => exact ⟨hv, answer_next h⟩
  · cases h

/-- A step that answers a next state rests, or runs the operation of the first input. -/
theorem step_next {s t : State} (h : step s = .next t) :
    (s.input = [] ∧ t = s) ∨
    ∃ p rest i, s.input = p :: rest ∧ decode p = .ok i ∧ exec i { s with input := rest } = .next t := by
  unfold step fetch at h
  cases hin : s.input with
  | nil => simp only [hin] at h; cases h; exact .inl ⟨rfl, rfl⟩
  | cons p rest =>
    simp only [hin] at h
    cases hd : decode p with
    | ok i => rw [hd] at h; exact .inr ⟨p, rest, i, rfl, hd, h⟩
    | error e => rw [hd] at h; cases h

/-- The cursor a received byte meets after the forced reset (42_transaction_tracker.md R121). -/
def cursorFor (first : Bool) (s : State) : BitVec 4 := if first then 0 else s.rxHead

/-- A received byte below the ninth (42_transaction_tracker.md R123). -/
theorem evByteRx_store (d : Byte) (first : Bool) (s : State) (h : cursorFor first s < 8) :
    evByteRx d first s = .ok
      { s with req := s.req.set (cursorFor first s).toNat d (by
                 have := BitVec.lt_def.mp h; simp at this; omega),
               rxHead := cursorFor first s + 1, phase := .receiving } := by
  have lt : (cursorFor first s).toNat < 9 := by have := BitVec.lt_def.mp h; simp at this; omega
  have ne : cursorFor first s ≠ 9 := by rintro e; rw [e] at h; revert h; decide
  have ne' : cursorFor first s + 1 ≠ 9 := by
    revert h; generalize cursorFor first s = c; revert c; decide
  cases first <;> simp_all [evByteRx, cursorFor, rxStore, memWrite]

/-- The ninth byte (42_transaction_tracker.md R128). -/
theorem evByteRx_ninth (d : Byte) (first : Bool) (s : State) (h : cursorFor first s = 8) :
    evByteRx d first s = .ok
      { compose { s with req := s.req.set 8 d, rxHead := 9 } with phase := .receiving } := by
  cases first
  · have h : s.rxHead = 8 := h
    simp [evByteRx, rxStore, memWrite, h]
  · simp [cursorFor] at h

/-- The tenth byte (42_transaction_tracker.md R124). -/
theorem evByteRx_tenth (d : Byte) (first : Bool) (s : State) (h : cursorFor first s = 9) :
    evByteRx d first s = .ok
      { s with rxHead := 0, rxOvf := true, diag := s.diag ++ [.requestOverflow], phase := .receiving } := by
  cases first
  · have h : s.rxHead = 9 := h
    simp [evByteRx, rxOverflow, raise_requestOverflow, h]
  · simp [cursorFor] at h

/-- A byte request below the sixteenth (42_transaction_tracker.md R126). -/
theorem evByteReq_load (s : State) (k : Fin 15) (h : s.txHead = BitVec.ofNat 4 k.val) :
    evByteReq s = (s.rep[k.val], { s with txHead := BitVec.ofNat 4 (k.val + 1), phase := .replying }) := by
  have lt := k.isLt
  have ne : s.txHead ≠ 15 := by
    rw [h]; intro e; have := congrArg BitVec.toNat e; simp at this; omega
  have val : s.txHead.toNat = k.val := by rw [h]; simp; omega
  have next : s.txHead + 1 = BitVec.ofNat 4 (k.val + 1) := by
    rw [h]; apply BitVec.eq_of_toNat_eq; simp
  simp only [evByteReq, dif_neg ne, repAtCursor, next, val]

/-- The sixteenth byte request (42_transaction_tracker.md R127). -/
theorem evByteReq_overflow (s : State) (h : s.txHead = 15) :
    evByteReq s = (Config.txOverflowByte s.draws,
      { s with txHead := 0, phase := .replying, txOvf := true, diag := s.diag ++ [.replyOverflow],
               draws := s.draws + 1 }) := by
  simp [evByteReq, h, txOverflow, raise_replyOverflow, drawOverflowByte]

/-- All that a byte request can do: the two arms of 42_transaction_tracker.md R125. -/
theorem evByteReq_cases (s : State) :
    (∃ h : s.txHead ≠ 15,
      evByteReq s = (repAtCursor s h, { s with txHead := s.txHead + 1, phase := .replying })) ∨
    (s.txHead = 15 ∧
      evByteReq s = (Config.txOverflowByte s.draws,
        { s with txHead := 0, phase := .replying, txOvf := true, diag := s.diag ++ [.replyOverflow],
                 draws := s.draws + 1 })) := by
  by_cases h : s.txHead = 15
  · exact .inr ⟨h, evByteReq_overflow s h⟩
  · exact .inl ⟨h, by rw [evByteReq, dif_neg h]⟩

/-- A byte request does not look at the engine: its answer and its effect are the same whatever the engine's
fields hold. -/
theorem evByteReq_engine (s : State) (be : EngineState) (bitcnt : BitVec 4) (sdaOut : Bool) :
    evByteReq { s with be := be, bitcnt := bitcnt, sdaOut := sdaOut } =
      ((evByteReq s).1, { (evByteReq s).2 with be := be, bitcnt := bitcnt, sdaOut := sdaOut }) := by
  unfold evByteReq
  by_cases h : s.txHead = 15
  · rw [dif_pos h, dif_pos h]; rfl
  · rw [dif_neg h, dif_neg h]; rfl

/-- A byte request keeps the parameters, the return port and the inputs. -/
theorem evByteReq_kept (s : State) :
    (evByteReq s).2.cfg = s.cfg ∧ (evByteReq s).2.ret = s.ret ∧ (evByteReq s).2.input = s.input := by
  rcases evByteReq_cases s with ⟨_, e⟩ | ⟨_, e⟩ <;> rw [e] <;> exact ⟨rfl, rfl, rfl⟩

/-- All that a received byte can do: the arms of 42_transaction_tracker.md R122, and the fault of a cursor
beyond 9. -/
theorem evByteRx_cases (d : Byte) (first : Bool) (s : State) :
    (∃ h : (cursorFor first s).toNat < 8, evByteRx d first s = .ok
      { s with req := s.req.set (cursorFor first s).toNat d, rxHead := cursorFor first s + 1,
               phase := .receiving }) ∨
    (cursorFor first s = 8 ∧ evByteRx d first s = .ok
      { s with req := s.req.set 8 d, rep := replyTo s.req[0] s.frameSeq, rxHead := 9,
               frameSeq := s.frameSeq + 1, phase := .receiving }) ∨
    (cursorFor first s = 9 ∧ evByteRx d first s = .ok
      { s with rxHead := 0, rxOvf := true, diag := s.diag ++ [.requestOverflow], phase := .receiving }) ∨
    (9 < cursorFor first s ∧
      evByteRx d first s = .error (.noSuchAddress .req (cursorFor first s).toNat)) := by
  have split4 : cursorFor first s < 8 ∨ cursorFor first s = 8 ∨ cursorFor first s = 9 ∨
      9 < cursorFor first s := by
    generalize cursorFor first s = c
    revert c; decide
  rcases split4 with h | h | h | h
  · exact .inl ⟨by simpa [BitVec.lt_def] using h, evByteRx_store d first s h⟩
  · refine .inr (.inl ⟨h, ?_⟩)
    rw [evByteRx_ninth d first s h, compose_eq]
    simp
  · exact .inr (.inr (.inl ⟨h, evByteRx_tenth d first s h⟩))
  · refine .inr (.inr (.inr ⟨h, ?_⟩))
    cases first
    · have h : 9 < s.rxHead := h
      have ne : ¬ s.rxHead = 9 := by rintro e; rw [e] at h; revert h; decide
      have big : ¬ s.rxHead.toNat < 9 := by have := BitVec.lt_def.mp h; simp at this; omega
      simp only [evByteRx, rxStore, memWrite, cursorFor, Bool.false_eq_true, if_false]
      rw [if_neg ne, dif_neg big]
    · exact absurd (show (9 : BitVec 4) < 0 from h) (by decide)

end Sys2Proof.Machine
end

