-- ==== Sys2Proof/Laws/EngineInv.lean ====
section
/-! SUPPORT. The engine's invariant, by the engine's state, and what each kind of sample does to it. -/

namespace Sys2Proof.Machine

/-- The invariant, in `BE_IDLE`. -/
theorem driveInv_idle {s : State} (hb : s.be = .idle) (hh : s.hold = .none) (hc : s.sclOut = true)
    (h : s.matched = false ∧ s.firstPending = false ∧ s.sdaOut = true) : s.DriveInv := by
  refine ⟨⟨?_, ?_, ?_, ?_, ?_⟩, ?_, ?_, ?_⟩ <;> simp [hb, hh, hc, h, State.HoldPlace, State.HoldDrivesScl]

/-- The invariant, in `BE_WAIT`. -/
theorem driveInv_wait {s : State} (hb : s.be = .wait) (hh : s.hold = .none) (hc : s.sclOut = true)
    (h : s.firstPending = false ∧ s.sdaOut = true) : s.DriveInv := by
  refine ⟨⟨?_, ?_, ?_, ?_, ?_⟩, ?_, ?_, ?_⟩ <;> simp [hb, hh, hc, h, State.HoldPlace, State.HoldDrivesScl]

/-- The invariant, in `BE_ADDR`. -/
theorem driveInv_addr {s : State} (hb : s.be = .addr) (hh : s.hold = .none) (hc : s.sclOut = true)
    (h : s.AddrClock) (hs : s.sdaOut = false → s.sclQ = false ∨ s.sdaQ = false) : s.DriveInv := by
  refine ⟨⟨?_, ?_, ?_, ?_, ?_⟩, ?_, ?_, hs⟩ <;>
    first | exact fun _ => h | simp [hb, hh, hc, State.HoldPlace, State.HoldDrivesScl]

/-- The invariant, in `BE_RX`. -/
theorem driveInv_rx {s : State} (hb : s.be = .rx) (hp : s.HoldPlace) (hc : s.HoldDrivesScl)
    (h : s.RxClock) (hs : s.sdaOut = false → s.sclQ = false ∨ s.sdaQ = false) : s.DriveInv := by
  refine ⟨⟨?_, ?_, ?_, ?_, ?_⟩, hp, hc, hs⟩ <;> first | exact fun _ => h | simp [hb]

/-- The invariant, in `BE_TX`. -/
theorem driveInv_tx {s : State} (hb : s.be = .tx) (hp : s.HoldPlace) (hc : s.HoldDrivesScl)
    (h : s.TxClock) (hs : s.sdaOut = false → s.sclQ = false ∨ s.sdaQ = false) : s.DriveInv := by
  refine ⟨⟨?_, ?_, ?_, ?_, ?_⟩, hp, hc, hs⟩ <;> first | exact fun _ => h | simp [hb]

/-- With SCL high, seen or driven, there is no hold. -/
theorem hold_none_of_driveInv {s : State} (h : s.DriveInv) (q : s.sclQ = true ∨ s.sclOut = true) :
    s.hold = .none := by
  obtain ⟨-, hp, hd, -⟩ := h
  cases hh : s.hold <;> simp_all [State.HoldPlace, State.HoldDrivesScl]

/-- The values of a count in its range. -/
theorem bitcnt_cases (b : BitVec 4) (h : b ≤ 9) :
    b = 0 ∨ b = 1 ∨ b = 2 ∨ b = 3 ∨ b = 4 ∨ b = 5 ∨ b = 6 ∨ b = 7 ∨ b = 8 ∨ b = 9 := by
  revert b; decide

/-- A rising edge of SCL. -/
theorem lcRise_driveInv {sclC sdaC : Bool} {s : State} (h : s.DriveInv) (q : s.sclQ = false)
    (c : (sclC && s.sclOut) = true) (d : s.sdaQ = (sdaC && s.sdaOut)) :
    (lcRise s.sdaQ (sampled sclC sdaC s)).DriveInv := by
  have co : s.sclOut = true := by simp_all
  have hn := hold_none_of_driveInv h (.inr co)
  have hq : s.sdaOut = false → s.sdaQ = false := by intro e; simp [d, e]
  rw [sampled_of_no_release (by simp [hn]), rememberLines, wiredAnd, wiredAnd, c, ← d]
  clear c d
  obtain ⟨⟨ci, cw, ca, cr, ct⟩, hp, hd, hs⟩ := h
  cases hb : s.be
  · exact driveInv_idle (by simp [lcRise, hb]) (by simpa [lcRise, hb] using hn) (by simpa [lcRise, hb] using co)
      (by simpa [lcRise, hb] using ci hb)
  · have ha := ca hb
    simp only [State.AddrClock, q] at ha
    rcases bitcnt_cases _ ha.1 with e | e | e | e | e | e | e | e | e | e <;> simp [e] at ha <;>
    refine driveInv_addr ?_ ?_ ?_ ?_ ?_ <;> simp [lcRise, hb, e, hn, co, ha, hq, State.AddrClock]
  · have ha := cr hb
    simp only [State.RxClock, q, hn] at ha
    rcases bitcnt_cases _ ha.1 with e | e | e | e | e | e | e | e | e | e <;> simp [e] at ha <;>
    refine driveInv_rx ?_ ?_ ?_ ?_ ?_ <;>
      simp [lcRise, hb, e, hn, co, ha, hq, State.RxClock, State.HoldPlace, State.HoldDrivesScl]
  · have ha := ct hb
    simp only [State.TxClock, q, hn] at ha
    rcases bitcnt_cases _ ha.1 with e | e | e | e | e | e | e | e | e | e <;> simp [e] at ha <;>
    refine driveInv_tx ?_ ?_ ?_ ?_ (by simpa [lcRise, hb, e] using hq) <;>
      simp [lcRise, hb, e, hn, co, ha, State.TxClock, State.HoldPlace, State.HoldDrivesScl]
  · exact driveInv_wait (by simp [lcRise, hb]) (by simpa [lcRise, hb] using hn) (by simpa [lcRise, hb] using co)
      (by simpa [lcRise, hb] using cw hb)

/-- Two states with the same byte engine. -/
abbrev SameEngine (s t : State) : Prop :=
  t.be = s.be ∧ t.bitcnt = s.bitcnt ∧ t.sr = s.sr ∧ t.rw = s.rw ∧ t.matched = s.matched ∧
  t.firstPending = s.firstPending ∧ t.sclQ = s.sclQ ∧ t.sdaQ = s.sdaQ ∧ t.sdaOut = s.sdaOut ∧
  t.sclOut = s.sclOut ∧ t.hold = s.hold

/-- The invariant speaks of the byte engine alone. -/
theorem driveInv_of_same {s t : State} (e : SameEngine s t) (h : s.DriveInv) : t.DriveInv := by
  obtain ⟨e1, e2, e3, e4, e5, e6, e7, e8, e9, e10, e11⟩ := e
  simpa only [State.DriveInv, State.EngineClock, State.AddrClock, State.RxClock, State.TxClock, State.HoldPlace,
    State.HoldDrivesScl, e1, e2, e3, e4, e5, e6, e7, e8, e9, e10, e11] using h

/-- The event touches no part of the engine. -/
theorem evByteRx_same {d : Byte} {first : Bool} {s t : State} (h : evByteRx d first s = .ok t) :
    SameEngine s t := by
  rcases evByteRx_cases d first s with ⟨_, g⟩ | ⟨_, g⟩ | ⟨_, g⟩ | ⟨_, g⟩ <;> rw [g] at h <;> cases h <;>
    exact ⟨rfl, rfl, rfl, rfl, rfl, rfl, rfl, rfl, rfl, rfl, rfl⟩

/-- The event touches no part of the engine. -/
theorem evByteReq_same (s : State) : SameEngine s (evByteReq s).2 := by
  rcases evByteReq_cases s with ⟨_, g⟩ | ⟨_, g⟩ <;> rw [g] <;>
    exact ⟨rfl, rfl, rfl, rfl, rfl, rfl, rfl, rfl, rfl, rfl, rfl⟩

/-- A falling edge of SCL. -/
theorem lcFall_driveInv {sclC sdaC : Bool} {s t : State} (h : s.DriveInv) (q : s.sclQ = true)
    (c : (sclC && s.sclOut) = false) (d : s.sdaQ = (sdaC && s.sdaOut))
    (e : lcFall (sampled sclC sdaC s) = .ok t) : t.DriveInv := by
  have hn := hold_none_of_driveInv h (.inl q)
  have co : s.sclOut = true := by
    have := h.2.2.1; simpa [State.HoldDrivesScl, hn] using this
  rw [sampled_of_no_release (by simp [hn]), rememberLines, wiredAnd, wiredAnd, c, ← d] at e
  clear c d
  obtain ⟨⟨ci, cw, ca, cr, ct⟩, hp, hd, hs⟩ := h
  have loadOk : ∀ (u : State) (b : Byte), u.be = .tx → u.hold = .none → u.sclOut = true → u.sclQ = false →
      u.matched = true → u.rw = true → u.firstPending = false → (load b u).DriveInv := by
    intro u b hb hh ho hq hm hr hf
    refine driveInv_tx ?_ ?_ ?_ ?_ ?_ <;>
      simp [load, hb, hh, ho, hq, hm, hr, hf, State.TxClock, State.HoldPlace, State.HoldDrivesScl, bitToSend]
  have fetchOk : ∀ u : State, u.be = .tx → u.hold = .none → u.sclOut = true → u.sclQ = false → u.sdaOut = true →
      u.matched = true → u.rw = true → u.firstPending = false → (fetchToSend u).DriveInv := by
    intro u hb hh ho hq hs hm hr hf
    unfold fetchToSend
    split
    · rcases evByteReq_cases u with ⟨_, e⟩ | ⟨_, e⟩ <;> rw [e] <;> exact loadOk _ _ hb hh ho hq hm hr hf
    · split
      · exact loadOk _ _ hb hh ho hq hm hr hf
      · refine driveInv_tx ?_ ?_ ?_ ?_ ?_ <;>
          simp [holdTxqEmpty, hb, hq, hs, hm, hr, hf, State.TxClock, State.HoldPlace, State.HoldDrivesScl]
  cases hb : s.be
  · simp only [lcFall, hb, Except.ok.injEq] at e
    subst e
    exact driveInv_idle rfl hn co (ci hb)
  · have ha := ca hb
    simp only [State.AddrClock, q] at ha
    rcases bitcnt_cases _ ha.1 with f | f | f | f | f | f | f | f | f | f <;> simp [f] at ha
    all_goals try
      (simp [lcFall, hb, f] at e; subst e; refine driveInv_addr ?_ ?_ ?_ ?_ ?_ <;>
        simp [hb, f, hn, co, ha, State.AddrClock]; done)
    · simp [lcFall, hb, f] at e
      subst e
      simp only [addressDecision]
      split
      · split
        · refine driveInv_addr ?_ ?_ ?_ ?_ ?_ <;> simp [addrR, hb, f, hn, co, ha, State.AddrClock]
        · refine driveInv_addr ?_ ?_ ?_ ?_ ?_ <;> simp [addrW, hb, f, hn, co, ha, State.AddrClock]
      · refine driveInv_wait ?_ ?_ ?_ ?_ <;> simp [addrOther, hn, co, ha]
    · simp [lcFall, hb, f] at e
      subst e
      simp only [endAddressAck]
      split
      · rename_i hr
        apply fetchOk <;> simp_all
      · rename_i hr
        refine driveInv_rx ?_ ?_ ?_ ?_ ?_ <;> simp_all [State.RxClock, State.HoldPlace, State.HoldDrivesScl]
  · have ha := cr hb
    simp only [State.RxClock, q, hn] at ha
    rcases bitcnt_cases _ ha.1 with f | f | f | f | f | f | f | f | f | f <;> simp [f] at ha
    all_goals try
      (simp [lcFall, hb, f] at e; subst e; refine driveInv_rx ?_ ?_ ?_ ?_ ?_ <;>
        simp [endDataAck, hb, f, hn, co, ha, State.RxClock, State.HoldPlace, State.HoldDrivesScl]; done)
    · simp [lcFall, hb, f] at e
      unfold deliver at e
      split at e
      · split at e
        · cases e
        · next g =>
          cases e
          obtain ⟨e1, e2, e3, e4, e5, e6, e7, e8, e9, e10, e11⟩ := evByteRx_same g
          refine driveInv_rx ?_ ?_ ?_ ?_ ?_ <;>
            simp [e1, e2, e4, e5, e7, e10, e11, hn, co, ha, State.RxClock, State.HoldPlace, State.HoldDrivesScl]
      · simp only [Except.ok.injEq] at e
        subst e
        split <;> refine driveInv_rx ?_ ?_ ?_ ?_ ?_ <;>
          simp [acceptByte, holdRxqFull, pushRxq, hn, co, ha, State.RxClock, State.HoldPlace, State.HoldDrivesScl]
  · have ha := ct hb
    simp only [State.TxClock, q, hn] at ha
    rcases bitcnt_cases _ ha.1 with f | f | f | f | f | f | f | f | f | f <;> simp [f] at ha
    all_goals try
      (simp [lcFall, hb, f] at e; subst e; refine driveInv_tx ?_ ?_ ?_ ?_ ?_ <;>
        simp [driveNextBit, releaseForAck, hb, f, hn, co, ha, State.TxClock, State.HoldPlace, State.HoldDrivesScl]; done)
    · simp [lcFall, hb, f] at e
      subst e
      simp only [afterControllerAck]
      split
      · refine driveInv_wait ?_ ?_ ?_ ?_ <;> simp [hn, co, ha]
      · apply fetchOk <;> simp_all
  · simp only [lcFall, hb, Except.ok.injEq] at e
    subst e
    exact driveInv_wait rfl hn co (cw hb)

/-- A sample in which SCL stays low. -/
theorem sampled_low_driveInv {sclC sdaC : Bool} {s : State} (h : s.DriveInv) (q : s.sclQ = false)
    (c : (sclC && s.sclOut) = false) : (sampled sclC sdaC s).DriveInv := by
  by_cases hr : s.hold = .release
  · obtain ⟨⟨ci, cw, ca, cr, ct⟩, hp, hd, hs⟩ := h
    rw [sampled_of_release hr, rememberLines, wiredAnd, c]
    rcases (hp.2.2 hr).2 with ⟨hb, f⟩ | ⟨hb, f⟩
    · have ha := cr hb
      refine driveInv_rx hb ?_ ?_ ?_ ?_ <;>
        simp_all [State.RxClock, State.HoldPlace, State.HoldDrivesScl]
    · have ha := ct hb
      refine driveInv_tx hb ?_ ?_ ?_ ?_ <;>
        simp_all [State.TxClock, State.HoldPlace, State.HoldDrivesScl]
  · rw [sampled_of_no_release hr, rememberLines, wiredAnd, c]
    obtain ⟨⟨ci, cw, ca, cr, ct⟩, hp, hd, hs⟩ := h
    rw [← q]
    exact ⟨⟨ci, cw, ca, cr, ct⟩, hp, hd, fun _ => .inl q⟩

/-- A sample in which both lines stay and SCL is high. -/
theorem sampled_high_driveInv {sclC sdaC : Bool} {s : State} (h : s.DriveInv) (q : s.sclQ = true)
    (c : (sclC && s.sclOut) = true) (d : s.sdaQ = (sdaC && s.sdaOut)) : (sampled sclC sdaC s).DriveInv := by
  have hn := hold_none_of_driveInv h (.inl q)
  rw [sampled_of_no_release (by simp [hn]), rememberLines, wiredAnd, wiredAnd, c, ← d, ← q]
  exact h

/-- A start condition. -/
theorem lcStart_driveInv {sclC sdaC : Bool} {s : State} (h : s.DriveInv) (q : s.sclQ = true)
    (c : (sclC && s.sclOut) = true) : (lcStart (sampled sclC sdaC s)).DriveInv := by
  have hn := hold_none_of_driveInv h (.inl q)
  have co : s.sclOut = true := by simp_all
  rw [sampled_of_no_release (by simp [hn]), rememberLines, wiredAnd, c]
  unfold lcStart emitInB
  split <;> refine driveInv_addr ?_ ?_ ?_ ?_ ?_ <;> simp [evStart, hn, co, State.AddrClock]

/-- A stop condition. -/
theorem lcStop_driveInv {sclC sdaC : Bool} {s : State} (h : s.DriveInv) (q : s.sclQ = true)
    (c : (sclC && s.sclOut) = true) : (lcStop (sampled sclC sdaC s)).DriveInv := by
  have hn := hold_none_of_driveInv h (.inl q)
  have co : s.sclOut = true := by simp_all
  rw [sampled_of_no_release (by simp [hn]), rememberLines, wiredAnd, c]
  unfold lcStop emitInB
  split <;> refine driveInv_idle ?_ ?_ ?_ ?_ <;> simp [evStop, hn, co]

/-- The end of a hold. -/
theorem beResume_driveInv {s : State} (h : s.DriveInv) : (beResume s).DriveInv := by
  unfold beResume
  split
  · rename_i hh
    split
    · obtain ⟨⟨ci, cw, ca, cr, ct⟩, hp, hd, hs⟩ := h
      obtain ⟨q, hb, f⟩ := hp.1 hh
      have ha := cr hb
      refine driveInv_rx ?_ ?_ ?_ ?_ ?_ <;>
        simp_all [acceptByte, pushRxq, State.RxClock, State.HoldPlace, State.HoldDrivesScl]
    · exact h
  · rename_i hh
    split
    · obtain ⟨⟨ci, cw, ca, cr, ct⟩, hp, hd, hs⟩ := h
      obtain ⟨q, hb, f⟩ := hp.2.1 hh
      have ha := ct hb
      refine driveInv_tx ?_ ?_ ?_ ?_ ?_ <;>
        simp_all [load, State.TxClock, State.HoldPlace, State.HoldDrivesScl, bitToSend]
    · exact h
  · exact h
  · exact h

end Sys2Proof.Machine
end

