-- ==== Sys2Proof/Laws/Runs.lean ====
section
/-! SUPPORT. Runs of several operations, and what one clock of the bus does. -/

namespace Sys2Proof.Machine

/-- A run in two parts. -/
theorem runAll_append (l₁ l₂ : List Instr) (s t : State) (h : runAll l₁ s = .next t) :
    runAll (l₁ ++ l₂) s = runAll l₂ t := by
  induction l₁ generalizing s with
  | nil => cases h; rfl
  | cons i l ih =>
    simp only [List.cons_append, runAll] at *
    cases he : exec i s with
    | next u => rw [he] at h; exact ih u h
    | fault e => rw [he] at h; cases h
    | refused e => rw [he] at h; cases h

/-- A rising edge leaves the lines, the outputs and the state of the engine. -/
theorem lcRise_keeps (b : Bool) (s : State) :
    (lcRise b s).sclQ = s.sclQ ∧ (lcRise b s).sdaQ = s.sdaQ ∧ (lcRise b s).sdaOut = s.sdaOut ∧
    (lcRise b s).sclOut = s.sclOut ∧ (lcRise b s).hold = s.hold ∧ (lcRise b s).be = s.be ∧
    (lcRise b s).expect = s.expect := by
  unfold lcRise; split <;> (try split_ifs) <;> exact ⟨rfl, rfl, rfl, rfl, rfl, rfl, rfl⟩

/-- A falling edge leaves the remembered lines and what is expected of the next sample. -/
theorem lcFall_keeps {s t : State} (e : lcFall s = .ok t) :
    t.expect = s.expect ∧ t.sclQ = s.sclQ ∧ t.sdaQ = s.sdaQ := by
  have fetchOk : ∀ u : State, (fetchToSend u).expect = u.expect ∧ (fetchToSend u).sclQ = u.sclQ ∧
      (fetchToSend u).sdaQ = u.sdaQ := by
    intro u
    unfold fetchToSend
    split
    · rcases evByteReq_cases u with ⟨_, e⟩ | ⟨_, e⟩ <;> rw [e] <;> exact ⟨rfl, rfl, rfl⟩
    · split <;> exact ⟨rfl, rfl, rfl⟩
  unfold lcFall at e
  split at e <;> (try split_ifs at e)
  case _ => cases e; unfold addressDecision addrR addrW addrOther; split_ifs <;> exact ⟨rfl, rfl, rfl⟩
  case _ => cases e; unfold endAddressAck; dsimp only; split_ifs; exacts [fetchOk _, ⟨rfl, rfl, rfl⟩]
  case _ => cases e; exact ⟨rfl, rfl, rfl⟩
  case _ =>
    unfold deliver at e
    split at e
    · split at e
      · cases e
      · next g =>
        cases e
        rcases evByteRx_cases s.sr s.firstPending s with ⟨_, h⟩ | ⟨_, h⟩ | ⟨_, h⟩ | ⟨_, h⟩ <;> rw [h] at g <;>
          cases g <;> exact ⟨rfl, rfl, rfl⟩
    · cases e; split <;> exact ⟨rfl, rfl, rfl⟩
  case _ => cases e; exact ⟨rfl, rfl, rfl⟩
  case _ => cases e; exact ⟨rfl, rfl, rfl⟩
  case _ => cases e; exact ⟨rfl, rfl, rfl⟩
  case _ => cases e; exact ⟨rfl, rfl, rfl⟩
  case _ => cases e; unfold afterControllerAck; split_ifs; exacts [⟨rfl, rfl, rfl⟩, fetchOk _]
  all_goals cases e; exact ⟨rfl, rfl, rfl⟩

/-- What every sample that completes leaves in the remembered lines and expects of the next one. -/
theorem exec_sample_notes {c d : Bool} {s t : State} (e : exec (.sample c d) s = .next t) :
    t.expect = expectAfter c d s ∧ t.sclQ = (c && s.sclOut) ∧ t.sdaQ = (d && s.sdaOut) := by
  have k : (sampled c d s).expect = expectAfter c d s ∧ (sampled c d s).sclQ = (c && s.sclOut) ∧
      (sampled c d s).sdaQ = (d && s.sdaOut) := by
    unfold sampled releaseHold
    split <;> exact ⟨rfl, rfl, rfl⟩
  rcases exec_sample_cases (sound_of_exec_sample e) with
    ⟨_, _, g⟩ | ⟨_, _, _, g⟩ | ⟨_, _, _, g⟩ | ⟨_, _, _, _, g⟩ | ⟨_, _, _, _, g⟩ <;> rw [g] at e
  · cases e; exact k
  · cases e
    obtain ⟨a, b, _, _, _, _, f⟩ := lcRise_keeps s.sdaQ (sampled c d s)
    rw [a, b, f]; exact k
  · obtain ⟨a, b, f⟩ := lcFall_keeps (answer_next e)
    rw [a, b, f]; exact k
  · cases e; unfold lcStart emitInB; split <;> exact k
  · cases e; unfold lcStop emitInB; split <;> exact k

/-- `s` in the high period of a clock in which the controller drives SDA to `b`. -/
def atHigh (b : Bool) (s : State) : State :=
  { s with sclQ := true, sdaQ := b && s.sdaOut, expect := .anything }

/-- One clock in which the controller drives SDA to `b`, inside the line rules: the rising edge, then the falling
edge. -/
theorem runAll_clock (b : Bool) (s : State) (hq : s.sclQ = false) (hc : s.sclOut = true) (hh : s.hold = .none)
    (hx : s.expect = .sclLow ∨ s.expect = .anything) (hr : s.sdaOut = false ∨ s.be = .tx → b = true) :
    runAll (clockSamples b) s = answer
      (lcFall { lcRise (b && s.sdaOut) (atHigh b s) with sclQ := false, expect := .sclLow }) := by
  have w1 : SampleSound false b s := by
    refine ⟨.inl (by simp [hq]), ?_, fun _ => rfl, ?_, by simp, by simp [hq]⟩ <;> rcases hx with e | e <;> simp [e]
  have e1 : sampled false b s = { s with sclQ := false, sdaQ := b && s.sdaOut, expect := .anything } := by
    rw [sampled_of_no_release (by simp [hh])]
    simp [rememberLines, wiredAnd, expectAfter, hq]
  simp only [clockSamples, runAll]
  rw [exec_sample_low w1 hq (by simp), e1]
  dsimp only
  generalize hu : ({ s with sclQ := false, sdaQ := b && s.sdaOut, expect := .anything } : State) = u
  have u1 : u.sclQ = false := by rw [← hu]
  have u2 : u.sclOut = true := by rw [← hu]; exact hc
  have u3 : u.hold = .none := by rw [← hu]; exact hh
  have u4 : u.sdaQ = (b && u.sdaOut) := by rw [← hu]
  have u5 : u.expect = .anything := by rw [← hu]
  have u6 : u.sdaOut = s.sdaOut := by rw [← hu]
  have u7 : u.be = s.be := by rw [← hu]
  have w2 : SampleSound true b u := by
    refine ⟨.inr u4.symm, by simp [u5], by simp [u5], by simp [u5], fun _ h => hr (.inl (u6 ▸ h)), by simp [u1]⟩
  have e2 : sampled true b u = atHigh b s := by
    rw [sampled_of_no_release (by simp [u3]), ← hu]
    simp [rememberLines, wiredAnd, expectAfter, hc, atHigh]
  rw [exec_sample_rise w2 u1 (by simp [u2]), e2, u4, u6]
  dsimp only
  obtain ⟨k1, k2, k3, k4, k5, k6, k7⟩ := lcRise_keeps (b && s.sdaOut) (atHigh b s)
  generalize lcRise (b && s.sdaOut) (atHigh b s) = v at *
  have v1 : v.sclQ = true := k1
  have v2 : v.sdaQ = (b && v.sdaOut) := by rw [k2, k3]; rfl
  have v3 : v.sclOut = true := k4.trans hc
  have v4 : v.hold = .none := k5.trans hh
  have v5 : v.expect = .anything := k7
  have w3 : SampleSound false b v := by
    refine ⟨.inr v2.symm, by simp [v5], by simp [v5], by simp [v5], by simp, ?_⟩
    intro _ _ _ h
    exact fun _ _ => hr (.inr (k6 ▸ h))
  have e3 : sampled false b v = { v with sclQ := false, expect := .sclLow } := by
    rw [sampled_of_no_release (by simp [v4])]
    simp [rememberLines, wiredAnd, expectAfter, v1, ← v2]
  rw [exec_sample_fall w3 v1 (by simp), e3]
  cases answer (lcFall _) <;> rfl

/-- The bits of the shift register after one more bit. -/
theorem shiftIn_getLsbD (r : Byte) (b : Bool) (i : Nat) (hi : i < 8) :
    (shiftIn r b).getLsbD i = if i = 0 then b else r.getLsbD (i - 1) := by
  unfold shiftIn
  rw [BitVec.getLsbD_append]
  interval_cases i <;> simp

/-- Eight bits, bit 7 first, fill the shift register. -/
theorem shiftIn_eight (r x : Byte) :
    shiftIn (shiftIn (shiftIn (shiftIn (shiftIn (shiftIn (shiftIn (shiftIn r (x.getLsbD 7)) (x.getLsbD 6))
      (x.getLsbD 5)) (x.getLsbD 4)) (x.getLsbD 3)) (x.getLsbD 2)) (x.getLsbD 1)) (x.getLsbD 0) = x := by
  apply BitVec.eq_of_getLsbD_eq
  intro i hi
  simp only [shiftIn_getLsbD _ _ _ hi]
  interval_cases i <;> simp only [shiftIn_getLsbD, Nat.reduceSub, Nat.reduceLT, Nat.reduceEqDiff, if_true, if_false]

/-- A clock of a byte being received, before its eighth bit. -/
theorem runAll_clock_rx (b : Bool) (s : State) (k : Nat) (hk : k < 7) (hb : s.be = .rx)
    (hn : s.bitcnt = BitVec.ofNat 4 k) (hq : s.sclQ = false) (ho : s.sdaOut = true) (hc : s.sclOut = true)
    (hh : s.hold = .none) (hx : s.expect = .sclLow ∨ s.expect = .anything) :
    runAll (clockSamples b) s = .next
      { s with sr := shiftIn s.sr b, bitcnt := BitVec.ofNat 4 (k + 1), sdaQ := b, expect := .sclLow } := by
  have h7 : BitVec.ofNat 4 k ≤ 7 := by interval_cases k <;> decide
  have h1 : BitVec.ofNat 4 k + 1 = BitVec.ofNat 4 (k + 1) := by apply BitVec.eq_of_toNat_eq; simp
  have n8 : BitVec.ofNat 4 (k + 1) ≠ 8 := by interval_cases k <;> decide
  have n9 : BitVec.ofNat 4 (k + 1) ≠ 9 := by interval_cases k <;> decide
  rw [runAll_clock b s hq hc hh hx (by simp [ho, hb])]
  simp only [atHigh, lcRise, hb, hn, ho, Bool.and_true]
  rw [if_pos h7, h1]
  simp only [lcFall, hb]
  rw [if_neg n8, if_neg n9, answer, ← hq]

/-- The clock of the eighth bit of a byte being received delivers it. -/
theorem runAll_clock_rx_eighth (b : Bool) (s : State) (hb : s.be = .rx) (hn : s.bitcnt = 7)
    (hq : s.sclQ = false) (ho : s.sdaOut = true) (hc : s.sclOut = true) (hh : s.hold = .none)
    (hx : s.expect = .sclLow ∨ s.expect = .anything) :
    runAll (clockSamples b) s = answer
      (deliver { s with sr := shiftIn s.sr b, bitcnt := 8, sdaQ := b, expect := .sclLow }) := by
  rw [runAll_clock b s hq hc hh hx (by simp [ho, hb])]
  simp only [atHigh, lcRise, hb, hn, ho, Bool.and_true]
  rw [if_pos (by decide)]
  simp only [lcFall, hb]
  rw [if_pos (by decide), ← hq]
  rfl

/-- The acknowledge clock of a byte that was received. -/
theorem runAll_clock_rx_ack (s : State) (hb : s.be = .rx) (hn : s.bitcnt = 8)
    (hq : s.sclQ = false) (ho : s.sdaOut = false) (hc : s.sclOut = true) (hh : s.hold = .none)
    (hx : s.expect = .sclLow ∨ s.expect = .anything) :
    runAll (clockSamples true) s = .next
      { s with sdaOut := true, bitcnt := 0, sdaQ := false, expect := .sclLow } := by
  rw [runAll_clock true s hq hc hh hx (fun _ => rfl)]
  simp only [atHigh, lcRise, hb, hn, ho, Bool.and_false, if_true]
  rw [if_neg (by decide)]
  simp only [lcFall, hb, if_true]
  rw [if_neg (by decide), answer, ← hq]
  rfl

/-- A clock of a byte being sent. -/
theorem runAll_clock_tx (s : State) (k : Nat) (hk : k < 8) (hb : s.be = .tx) (hn : s.bitcnt = BitVec.ofNat 4 k)
    (hq : s.sclQ = false) (hc : s.sclOut = true) (hh : s.hold = .none)
    (hx : s.expect = .sclLow ∨ s.expect = .anything) :
    runAll (clockSamples true) s = .next
      { s with sdaQ := s.sdaOut, bitcnt := BitVec.ofNat 4 (k + 1),
               sdaOut := (if k = 7 then true else bitToSend s.sr (k + 1)), expect := .sclLow } := by
  have h7 : BitVec.ofNat 4 k ≤ 7 := by interval_cases k <;> decide
  have h1 : BitVec.ofNat 4 k + 1 = BitVec.ofNat 4 (k + 1) := by apply BitVec.eq_of_toNat_eq; simp
  rw [runAll_clock true s hq hc hh hx (fun _ => rfl)]
  simp only [atHigh, lcRise, hb, hn, Bool.true_and]
  rw [if_pos h7, h1]
  by_cases h : k = 7
  · subst h
    simp only [lcFall, hb]
    rw [if_neg (by decide), if_pos (by decide)]
    simp [releaseForAck, answer, hq]
  · have hk' : k < 7 := by omega
    have m : (1 : BitVec 4) ≤ BitVec.ofNat 4 (k + 1) ∧ BitVec.ofNat 4 (k + 1) ≤ 7 := by
      interval_cases k <;> decide
    have n : (BitVec.ofNat 4 (k + 1)).toNat = k + 1 := by simp; omega
    simp only [lcFall, hb]
    rw [if_pos m]
    simp only [driveNextBit, answer, n, hq, if_neg h]

end Sys2Proof.Machine
end

