-- ==== Sys2Proof/Laws/State.lean ====
section
/-! SUPPORT. One lemma per field for each update of the state: what the field holds after it. -/

namespace Sys2Proof.Machine

variable (s : State)

@[simp] theorem pushRxq_cfg (v : Byte) : (pushRxq v s).cfg = s.cfg := rfl
@[simp] theorem pushRxq_req (v : Byte) : (pushRxq v s).req = s.req := rfl
@[simp] theorem pushRxq_rep (v : Byte) : (pushRxq v s).rep = s.rep := rfl
@[simp] theorem pushRxq_rxHead (v : Byte) : (pushRxq v s).rxHead = s.rxHead := rfl
@[simp] theorem pushRxq_txHead (v : Byte) : (pushRxq v s).txHead = s.txHead := rfl
@[simp] theorem pushRxq_frameSeq (v : Byte) : (pushRxq v s).frameSeq = s.frameSeq := rfl
@[simp] theorem pushRxq_phase (v : Byte) : (pushRxq v s).phase = s.phase := rfl
@[simp] theorem pushRxq_rxOvf (v : Byte) : (pushRxq v s).rxOvf = s.rxOvf := rfl
@[simp] theorem pushRxq_txOvf (v : Byte) : (pushRxq v s).txOvf = s.txOvf := rfl
@[simp] theorem pushRxq_diag (v : Byte) : (pushRxq v s).diag = s.diag := rfl
@[simp] theorem pushRxq_be (v : Byte) : (pushRxq v s).be = s.be := rfl
@[simp] theorem pushRxq_bitcnt (v : Byte) : (pushRxq v s).bitcnt = s.bitcnt := rfl
@[simp] theorem pushRxq_sr (v : Byte) : (pushRxq v s).sr = s.sr := rfl
@[simp] theorem pushRxq_rw (v : Byte) : (pushRxq v s).rw = s.rw := rfl
@[simp] theorem pushRxq_matched (v : Byte) : (pushRxq v s).matched = s.matched := rfl
@[simp] theorem pushRxq_firstPending (v : Byte) : (pushRxq v s).firstPending = s.firstPending := rfl
@[simp] theorem pushRxq_nack (v : Byte) : (pushRxq v s).nack = s.nack := rfl
@[simp] theorem pushRxq_sclQ (v : Byte) : (pushRxq v s).sclQ = s.sclQ := rfl
@[simp] theorem pushRxq_sdaQ (v : Byte) : (pushRxq v s).sdaQ = s.sdaQ := rfl
@[simp] theorem pushRxq_sdaOut (v : Byte) : (pushRxq v s).sdaOut = s.sdaOut := rfl
@[simp] theorem pushRxq_sclOut (v : Byte) : (pushRxq v s).sclOut = s.sclOut := rfl
@[simp] theorem pushRxq_hold (v : Byte) : (pushRxq v s).hold = s.hold := rfl
@[simp] theorem pushRxq_rxq (v : Byte) : (pushRxq v s).rxq = s.rxq ++ [v] := rfl
@[simp] theorem pushRxq_txq (v : Byte) : (pushRxq v s).txq = s.txq := rfl
@[simp] theorem pushRxq_seqState (v : Byte) : (pushRxq v s).seqState = s.seqState := rfl
@[simp] theorem pushRxq_draws (v : Byte) : (pushRxq v s).draws = s.draws := rfl
@[simp] theorem pushRxq_expect (v : Byte) : (pushRxq v s).expect = s.expect := rfl
@[simp] theorem pushRxq_ret (v : Byte) : (pushRxq v s).ret = s.ret := rfl
@[simp] theorem pushRxq_input (v : Byte) : (pushRxq v s).input = s.input := rfl

@[simp] theorem pushTxq_cfg (v : Byte) : (pushTxq v s).cfg = s.cfg := rfl
@[simp] theorem pushTxq_req (v : Byte) : (pushTxq v s).req = s.req := rfl
@[simp] theorem pushTxq_rep (v : Byte) : (pushTxq v s).rep = s.rep := rfl
@[simp] theorem pushTxq_rxHead (v : Byte) : (pushTxq v s).rxHead = s.rxHead := rfl
@[simp] theorem pushTxq_txHead (v : Byte) : (pushTxq v s).txHead = s.txHead := rfl
@[simp] theorem pushTxq_frameSeq (v : Byte) : (pushTxq v s).frameSeq = s.frameSeq := rfl
@[simp] theorem pushTxq_phase (v : Byte) : (pushTxq v s).phase = s.phase := rfl
@[simp] theorem pushTxq_rxOvf (v : Byte) : (pushTxq v s).rxOvf = s.rxOvf := rfl
@[simp] theorem pushTxq_txOvf (v : Byte) : (pushTxq v s).txOvf = s.txOvf := rfl
@[simp] theorem pushTxq_diag (v : Byte) : (pushTxq v s).diag = s.diag := rfl
@[simp] theorem pushTxq_be (v : Byte) : (pushTxq v s).be = s.be := rfl
@[simp] theorem pushTxq_bitcnt (v : Byte) : (pushTxq v s).bitcnt = s.bitcnt := rfl
@[simp] theorem pushTxq_sr (v : Byte) : (pushTxq v s).sr = s.sr := rfl
@[simp] theorem pushTxq_rw (v : Byte) : (pushTxq v s).rw = s.rw := rfl
@[simp] theorem pushTxq_matched (v : Byte) : (pushTxq v s).matched = s.matched := rfl
@[simp] theorem pushTxq_firstPending (v : Byte) : (pushTxq v s).firstPending = s.firstPending := rfl
@[simp] theorem pushTxq_nack (v : Byte) : (pushTxq v s).nack = s.nack := rfl
@[simp] theorem pushTxq_sclQ (v : Byte) : (pushTxq v s).sclQ = s.sclQ := rfl
@[simp] theorem pushTxq_sdaQ (v : Byte) : (pushTxq v s).sdaQ = s.sdaQ := rfl
@[simp] theorem pushTxq_sdaOut (v : Byte) : (pushTxq v s).sdaOut = s.sdaOut := rfl
@[simp] theorem pushTxq_sclOut (v : Byte) : (pushTxq v s).sclOut = s.sclOut := rfl
@[simp] theorem pushTxq_hold (v : Byte) : (pushTxq v s).hold = s.hold := rfl
@[simp] theorem pushTxq_rxq (v : Byte) : (pushTxq v s).rxq = s.rxq := rfl
@[simp] theorem pushTxq_txq (v : Byte) : (pushTxq v s).txq = s.txq ++ [v] := rfl
@[simp] theorem pushTxq_seqState (v : Byte) : (pushTxq v s).seqState = s.seqState := rfl
@[simp] theorem pushTxq_draws (v : Byte) : (pushTxq v s).draws = s.draws := rfl
@[simp] theorem pushTxq_expect (v : Byte) : (pushTxq v s).expect = s.expect := rfl
@[simp] theorem pushTxq_ret (v : Byte) : (pushTxq v s).ret = s.ret := rfl
@[simp] theorem pushTxq_input (v : Byte) : (pushTxq v s).input = s.input := rfl

@[simp] theorem setStickyFlag_cfg (c : Condition) : (setStickyFlag c s).cfg = s.cfg := by cases c <;> rfl
@[simp] theorem setStickyFlag_req (c : Condition) : (setStickyFlag c s).req = s.req := by cases c <;> rfl
@[simp] theorem setStickyFlag_rep (c : Condition) : (setStickyFlag c s).rep = s.rep := by cases c <;> rfl
@[simp] theorem setStickyFlag_rxHead (c : Condition) : (setStickyFlag c s).rxHead = s.rxHead := by cases c <;> rfl
@[simp] theorem setStickyFlag_txHead (c : Condition) : (setStickyFlag c s).txHead = s.txHead := by cases c <;> rfl
@[simp] theorem setStickyFlag_frameSeq (c : Condition) : (setStickyFlag c s).frameSeq = s.frameSeq := by cases c <;> rfl
@[simp] theorem setStickyFlag_phase (c : Condition) : (setStickyFlag c s).phase = s.phase := by cases c <;> rfl
@[simp] theorem setStickyFlag_rxOvf (c : Condition) : (setStickyFlag c s).rxOvf = (s.rxOvf || c == .requestOverflow) := by cases c <;> simp [setStickyFlag]
@[simp] theorem setStickyFlag_txOvf (c : Condition) : (setStickyFlag c s).txOvf = (s.txOvf || c == .replyOverflow) := by cases c <;> simp [setStickyFlag]
@[simp] theorem setStickyFlag_diag (c : Condition) : (setStickyFlag c s).diag = s.diag := by cases c <;> rfl
@[simp] theorem setStickyFlag_be (c : Condition) : (setStickyFlag c s).be = s.be := by cases c <;> rfl
@[simp] theorem setStickyFlag_bitcnt (c : Condition) : (setStickyFlag c s).bitcnt = s.bitcnt := by cases c <;> rfl
@[simp] theorem setStickyFlag_sr (c : Condition) : (setStickyFlag c s).sr = s.sr := by cases c <;> rfl
@[simp] theorem setStickyFlag_rw (c : Condition) : (setStickyFlag c s).rw = s.rw := by cases c <;> rfl
@[simp] theorem setStickyFlag_matched (c : Condition) : (setStickyFlag c s).matched = s.matched := by cases c <;> rfl
@[simp] theorem setStickyFlag_firstPending (c : Condition) : (setStickyFlag c s).firstPending = s.firstPending := by cases c <;> rfl
@[simp] theorem setStickyFlag_nack (c : Condition) : (setStickyFlag c s).nack = s.nack := by cases c <;> rfl
@[simp] theorem setStickyFlag_sclQ (c : Condition) : (setStickyFlag c s).sclQ = s.sclQ := by cases c <;> rfl
@[simp] theorem setStickyFlag_sdaQ (c : Condition) : (setStickyFlag c s).sdaQ = s.sdaQ := by cases c <;> rfl
@[simp] theorem setStickyFlag_sdaOut (c : Condition) : (setStickyFlag c s).sdaOut = s.sdaOut := by cases c <;> rfl
@[simp] theorem setStickyFlag_sclOut (c : Condition) : (setStickyFlag c s).sclOut = s.sclOut := by cases c <;> rfl
@[simp] theorem setStickyFlag_hold (c : Condition) : (setStickyFlag c s).hold = s.hold := by cases c <;> rfl
@[simp] theorem setStickyFlag_rxq (c : Condition) : (setStickyFlag c s).rxq = s.rxq := by cases c <;> rfl
@[simp] theorem setStickyFlag_txq (c : Condition) : (setStickyFlag c s).txq = s.txq := by cases c <;> rfl
@[simp] theorem setStickyFlag_seqState (c : Condition) : (setStickyFlag c s).seqState = s.seqState := by cases c <;> rfl
@[simp] theorem setStickyFlag_draws (c : Condition) : (setStickyFlag c s).draws = s.draws := by cases c <;> rfl
@[simp] theorem setStickyFlag_expect (c : Condition) : (setStickyFlag c s).expect = s.expect := by cases c <;> rfl
@[simp] theorem setStickyFlag_ret (c : Condition) : (setStickyFlag c s).ret = s.ret := by cases c <;> rfl
@[simp] theorem setStickyFlag_input (c : Condition) : (setStickyFlag c s).input = s.input := by cases c <;> rfl

@[simp] theorem raise_cfg (c : Condition) : (raise c s).cfg = s.cfg := by cases c <;> rfl
@[simp] theorem raise_req (c : Condition) : (raise c s).req = s.req := by cases c <;> rfl
@[simp] theorem raise_rep (c : Condition) : (raise c s).rep = s.rep := by cases c <;> rfl
@[simp] theorem raise_rxHead (c : Condition) : (raise c s).rxHead = s.rxHead := by cases c <;> rfl
@[simp] theorem raise_txHead (c : Condition) : (raise c s).txHead = s.txHead := by cases c <;> rfl
@[simp] theorem raise_frameSeq (c : Condition) : (raise c s).frameSeq = s.frameSeq := by cases c <;> rfl
@[simp] theorem raise_phase (c : Condition) : (raise c s).phase = s.phase := by cases c <;> rfl
@[simp] theorem raise_rxOvf (c : Condition) : (raise c s).rxOvf = (s.rxOvf || c == .requestOverflow) := by cases c <;> simp [raise, setStickyFlag]
@[simp] theorem raise_txOvf (c : Condition) : (raise c s).txOvf = (s.txOvf || c == .replyOverflow) := by cases c <;> simp [raise, setStickyFlag]
@[simp] theorem raise_diag (c : Condition) : (raise c s).diag = s.diag ++ [c] := by cases c <;> simp [raise, setStickyFlag]
@[simp] theorem raise_be (c : Condition) : (raise c s).be = s.be := by cases c <;> rfl
@[simp] theorem raise_bitcnt (c : Condition) : (raise c s).bitcnt = s.bitcnt := by cases c <;> rfl
@[simp] theorem raise_sr (c : Condition) : (raise c s).sr = s.sr := by cases c <;> rfl
@[simp] theorem raise_rw (c : Condition) : (raise c s).rw = s.rw := by cases c <;> rfl
@[simp] theorem raise_matched (c : Condition) : (raise c s).matched = s.matched := by cases c <;> rfl
@[simp] theorem raise_firstPending (c : Condition) : (raise c s).firstPending = s.firstPending := by cases c <;> rfl
@[simp] theorem raise_nack (c : Condition) : (raise c s).nack = s.nack := by cases c <;> rfl
@[simp] theorem raise_sclQ (c : Condition) : (raise c s).sclQ = s.sclQ := by cases c <;> rfl
@[simp] theorem raise_sdaQ (c : Condition) : (raise c s).sdaQ = s.sdaQ := by cases c <;> rfl
@[simp] theorem raise_sdaOut (c : Condition) : (raise c s).sdaOut = s.sdaOut := by cases c <;> rfl
@[simp] theorem raise_sclOut (c : Condition) : (raise c s).sclOut = s.sclOut := by cases c <;> rfl
@[simp] theorem raise_hold (c : Condition) : (raise c s).hold = s.hold := by cases c <;> rfl
@[simp] theorem raise_rxq (c : Condition) : (raise c s).rxq = s.rxq := by cases c <;> rfl
@[simp] theorem raise_txq (c : Condition) : (raise c s).txq = s.txq := by cases c <;> rfl
@[simp] theorem raise_seqState (c : Condition) : (raise c s).seqState = s.seqState := by cases c <;> rfl
@[simp] theorem raise_draws (c : Condition) : (raise c s).draws = s.draws := by cases c <;> rfl
@[simp] theorem raise_expect (c : Condition) : (raise c s).expect = s.expect := by cases c <;> rfl
@[simp] theorem raise_ret (c : Condition) : (raise c s).ret = s.ret := by cases c <;> rfl
@[simp] theorem raise_input (c : Condition) : (raise c s).input = s.input := by cases c <;> rfl

@[simp] theorem returnEntry_cfg (e : Payload × Byte) : (returnEntry e s).cfg = s.cfg := rfl
@[simp] theorem returnEntry_req (e : Payload × Byte) : (returnEntry e s).req = s.req := rfl
@[simp] theorem returnEntry_rep (e : Payload × Byte) : (returnEntry e s).rep = s.rep := rfl
@[simp] theorem returnEntry_rxHead (e : Payload × Byte) : (returnEntry e s).rxHead = s.rxHead := rfl
@[simp] theorem returnEntry_txHead (e : Payload × Byte) : (returnEntry e s).txHead = s.txHead := rfl
@[simp] theorem returnEntry_frameSeq (e : Payload × Byte) : (returnEntry e s).frameSeq = s.frameSeq := rfl
@[simp] theorem returnEntry_phase (e : Payload × Byte) : (returnEntry e s).phase = s.phase := rfl
@[simp] theorem returnEntry_rxOvf (e : Payload × Byte) : (returnEntry e s).rxOvf = s.rxOvf := rfl
@[simp] theorem returnEntry_txOvf (e : Payload × Byte) : (returnEntry e s).txOvf = s.txOvf := rfl
@[simp] theorem returnEntry_diag (e : Payload × Byte) : (returnEntry e s).diag = s.diag := rfl
@[simp] theorem returnEntry_be (e : Payload × Byte) : (returnEntry e s).be = s.be := rfl
@[simp] theorem returnEntry_bitcnt (e : Payload × Byte) : (returnEntry e s).bitcnt = s.bitcnt := rfl
@[simp] theorem returnEntry_sr (e : Payload × Byte) : (returnEntry e s).sr = s.sr := rfl
@[simp] theorem returnEntry_rw (e : Payload × Byte) : (returnEntry e s).rw = s.rw := rfl
@[simp] theorem returnEntry_matched (e : Payload × Byte) : (returnEntry e s).matched = s.matched := rfl
@[simp] theorem returnEntry_firstPending (e : Payload × Byte) : (returnEntry e s).firstPending = s.firstPending := rfl
@[simp] theorem returnEntry_nack (e : Payload × Byte) : (returnEntry e s).nack = s.nack := rfl
@[simp] theorem returnEntry_sclQ (e : Payload × Byte) : (returnEntry e s).sclQ = s.sclQ := rfl
@[simp] theorem returnEntry_sdaQ (e : Payload × Byte) : (returnEntry e s).sdaQ = s.sdaQ := rfl
@[simp] theorem returnEntry_sdaOut (e : Payload × Byte) : (returnEntry e s).sdaOut = s.sdaOut := rfl
@[simp] theorem returnEntry_sclOut (e : Payload × Byte) : (returnEntry e s).sclOut = s.sclOut := rfl
@[simp] theorem returnEntry_hold (e : Payload × Byte) : (returnEntry e s).hold = s.hold := rfl
@[simp] theorem returnEntry_rxq (e : Payload × Byte) : (returnEntry e s).rxq = s.rxq := rfl
@[simp] theorem returnEntry_txq (e : Payload × Byte) : (returnEntry e s).txq = s.txq := rfl
@[simp] theorem returnEntry_seqState (e : Payload × Byte) : (returnEntry e s).seqState = s.seqState := rfl
@[simp] theorem returnEntry_draws (e : Payload × Byte) : (returnEntry e s).draws = s.draws := rfl
@[simp] theorem returnEntry_expect (e : Payload × Byte) : (returnEntry e s).expect = s.expect := rfl
@[simp] theorem returnEntry_ret (e : Payload × Byte) : (returnEntry e s).ret = .selected e.1 e.2 := rfl
@[simp] theorem returnEntry_input (e : Payload × Byte) : (returnEntry e s).input = s.input := rfl

@[simp] theorem compose_cfg : (compose s).cfg = s.cfg := rfl
@[simp] theorem compose_req : (compose s).req = s.req := rfl
@[simp] theorem compose_rep : (compose s).rep = (buildReply (lookup (modeSelector s.req)).1 (lookup (modeSelector s.req)).2 s).1 := rfl
@[simp] theorem compose_rxHead : (compose s).rxHead = s.rxHead := rfl
@[simp] theorem compose_txHead : (compose s).txHead = s.txHead := rfl
@[simp] theorem compose_frameSeq : (compose s).frameSeq = s.frameSeq + 1 := rfl
@[simp] theorem compose_phase : (compose s).phase = s.phase := rfl
@[simp] theorem compose_rxOvf : (compose s).rxOvf = s.rxOvf := rfl
@[simp] theorem compose_txOvf : (compose s).txOvf = s.txOvf := rfl
@[simp] theorem compose_diag : (compose s).diag = s.diag := rfl
@[simp] theorem compose_be : (compose s).be = s.be := rfl
@[simp] theorem compose_bitcnt : (compose s).bitcnt = s.bitcnt := rfl
@[simp] theorem compose_sr : (compose s).sr = s.sr := rfl
@[simp] theorem compose_rw : (compose s).rw = s.rw := rfl
@[simp] theorem compose_matched : (compose s).matched = s.matched := rfl
@[simp] theorem compose_firstPending : (compose s).firstPending = s.firstPending := rfl
@[simp] theorem compose_nack : (compose s).nack = s.nack := rfl
@[simp] theorem compose_sclQ : (compose s).sclQ = s.sclQ := rfl
@[simp] theorem compose_sdaQ : (compose s).sdaQ = s.sdaQ := rfl
@[simp] theorem compose_sdaOut : (compose s).sdaOut = s.sdaOut := rfl
@[simp] theorem compose_sclOut : (compose s).sclOut = s.sclOut := rfl
@[simp] theorem compose_hold : (compose s).hold = s.hold := rfl
@[simp] theorem compose_rxq : (compose s).rxq = s.rxq := rfl
@[simp] theorem compose_txq : (compose s).txq = s.txq := rfl
@[simp] theorem compose_seqState : (compose s).seqState = s.seqState := rfl
@[simp] theorem compose_draws : (compose s).draws = s.draws := rfl
@[simp] theorem compose_expect : (compose s).expect = s.expect := rfl
@[simp] theorem compose_ret : (compose s).ret = s.ret := rfl
@[simp] theorem compose_input : (compose s).input = s.input := rfl

@[simp] theorem evStart_cfg : (evStart s).cfg = s.cfg := rfl
@[simp] theorem evStart_req : (evStart s).req = s.req := rfl
@[simp] theorem evStart_rep : (evStart s).rep = s.rep := rfl
@[simp] theorem evStart_rxHead : (evStart s).rxHead = 0 := rfl
@[simp] theorem evStart_txHead : (evStart s).txHead = 0 := rfl
@[simp] theorem evStart_frameSeq : (evStart s).frameSeq = s.frameSeq := rfl
@[simp] theorem evStart_phase : (evStart s).phase = .receiving := rfl
@[simp] theorem evStart_rxOvf : (evStart s).rxOvf = s.rxOvf := rfl
@[simp] theorem evStart_txOvf : (evStart s).txOvf = s.txOvf := rfl
@[simp] theorem evStart_diag : (evStart s).diag = s.diag := rfl
@[simp] theorem evStart_be : (evStart s).be = s.be := rfl
@[simp] theorem evStart_bitcnt : (evStart s).bitcnt = s.bitcnt := rfl
@[simp] theorem evStart_sr : (evStart s).sr = s.sr := rfl
@[simp] theorem evStart_rw : (evStart s).rw = s.rw := rfl
@[simp] theorem evStart_matched : (evStart s).matched = s.matched := rfl
@[simp] theorem evStart_firstPending : (evStart s).firstPending = s.firstPending := rfl
@[simp] theorem evStart_nack : (evStart s).nack = s.nack := rfl
@[simp] theorem evStart_sclQ : (evStart s).sclQ = s.sclQ := rfl
@[simp] theorem evStart_sdaQ : (evStart s).sdaQ = s.sdaQ := rfl
@[simp] theorem evStart_sdaOut : (evStart s).sdaOut = s.sdaOut := rfl
@[simp] theorem evStart_sclOut : (evStart s).sclOut = s.sclOut := rfl
@[simp] theorem evStart_hold : (evStart s).hold = s.hold := rfl
@[simp] theorem evStart_rxq : (evStart s).rxq = s.rxq := rfl
@[simp] theorem evStart_txq : (evStart s).txq = s.txq := rfl
@[simp] theorem evStart_seqState : (evStart s).seqState = s.seqState := rfl
@[simp] theorem evStart_draws : (evStart s).draws = s.draws := rfl
@[simp] theorem evStart_expect : (evStart s).expect = s.expect := rfl
@[simp] theorem evStart_ret : (evStart s).ret = s.ret := rfl
@[simp] theorem evStart_input : (evStart s).input = s.input := rfl

@[simp] theorem evStop_cfg : (evStop s).cfg = s.cfg := rfl
@[simp] theorem evStop_req : (evStop s).req = s.req := rfl
@[simp] theorem evStop_rep : (evStop s).rep = s.rep := rfl
@[simp] theorem evStop_rxHead : (evStop s).rxHead = 0 := rfl
@[simp] theorem evStop_txHead : (evStop s).txHead = 0 := rfl
@[simp] theorem evStop_frameSeq : (evStop s).frameSeq = s.frameSeq := rfl
@[simp] theorem evStop_phase : (evStop s).phase = .idle := rfl
@[simp] theorem evStop_rxOvf : (evStop s).rxOvf = s.rxOvf := rfl
@[simp] theorem evStop_txOvf : (evStop s).txOvf = s.txOvf := rfl
@[simp] theorem evStop_diag : (evStop s).diag = s.diag := rfl
@[simp] theorem evStop_be : (evStop s).be = s.be := rfl
@[simp] theorem evStop_bitcnt : (evStop s).bitcnt = s.bitcnt := rfl
@[simp] theorem evStop_sr : (evStop s).sr = s.sr := rfl
@[simp] theorem evStop_rw : (evStop s).rw = s.rw := rfl
@[simp] theorem evStop_matched : (evStop s).matched = s.matched := rfl
@[simp] theorem evStop_firstPending : (evStop s).firstPending = s.firstPending := rfl
@[simp] theorem evStop_nack : (evStop s).nack = s.nack := rfl
@[simp] theorem evStop_sclQ : (evStop s).sclQ = s.sclQ := rfl
@[simp] theorem evStop_sdaQ : (evStop s).sdaQ = s.sdaQ := rfl
@[simp] theorem evStop_sdaOut : (evStop s).sdaOut = s.sdaOut := rfl
@[simp] theorem evStop_sclOut : (evStop s).sclOut = s.sclOut := rfl
@[simp] theorem evStop_hold : (evStop s).hold = s.hold := rfl
@[simp] theorem evStop_rxq : (evStop s).rxq = s.rxq := rfl
@[simp] theorem evStop_txq : (evStop s).txq = s.txq := rfl
@[simp] theorem evStop_seqState : (evStop s).seqState = s.seqState := rfl
@[simp] theorem evStop_draws : (evStop s).draws = s.draws := rfl
@[simp] theorem evStop_expect : (evStop s).expect = s.expect := rfl
@[simp] theorem evStop_ret : (evStop s).ret = s.ret := rfl
@[simp] theorem evStop_input : (evStop s).input = s.input := rfl

@[simp] theorem addrW_cfg : (addrW s).cfg = s.cfg := rfl
@[simp] theorem addrW_req : (addrW s).req = s.req := rfl
@[simp] theorem addrW_rep : (addrW s).rep = s.rep := rfl
@[simp] theorem addrW_rxHead : (addrW s).rxHead = s.rxHead := rfl
@[simp] theorem addrW_txHead : (addrW s).txHead = s.txHead := rfl
@[simp] theorem addrW_frameSeq : (addrW s).frameSeq = s.frameSeq := rfl
@[simp] theorem addrW_phase : (addrW s).phase = s.phase := rfl
@[simp] theorem addrW_rxOvf : (addrW s).rxOvf = s.rxOvf := rfl
@[simp] theorem addrW_txOvf : (addrW s).txOvf = s.txOvf := rfl
@[simp] theorem addrW_diag : (addrW s).diag = s.diag := rfl
@[simp] theorem addrW_be : (addrW s).be = s.be := rfl
@[simp] theorem addrW_bitcnt : (addrW s).bitcnt = s.bitcnt := rfl
@[simp] theorem addrW_sr : (addrW s).sr = s.sr := rfl
@[simp] theorem addrW_rw : (addrW s).rw = false := rfl
@[simp] theorem addrW_matched : (addrW s).matched = true := rfl
@[simp] theorem addrW_firstPending : (addrW s).firstPending = true := rfl
@[simp] theorem addrW_nack : (addrW s).nack = s.nack := rfl
@[simp] theorem addrW_sclQ : (addrW s).sclQ = s.sclQ := rfl
@[simp] theorem addrW_sdaQ : (addrW s).sdaQ = s.sdaQ := rfl
@[simp] theorem addrW_sdaOut : (addrW s).sdaOut = false := rfl
@[simp] theorem addrW_sclOut : (addrW s).sclOut = s.sclOut := rfl
@[simp] theorem addrW_hold : (addrW s).hold = s.hold := rfl
@[simp] theorem addrW_rxq : (addrW s).rxq = s.rxq := rfl
@[simp] theorem addrW_txq : (addrW s).txq = s.txq := rfl
@[simp] theorem addrW_seqState : (addrW s).seqState = s.seqState := rfl
@[simp] theorem addrW_draws : (addrW s).draws = s.draws := rfl
@[simp] theorem addrW_expect : (addrW s).expect = s.expect := rfl
@[simp] theorem addrW_ret : (addrW s).ret = s.ret := rfl
@[simp] theorem addrW_input : (addrW s).input = s.input := rfl

@[simp] theorem addrR_cfg : (addrR s).cfg = s.cfg := rfl
@[simp] theorem addrR_req : (addrR s).req = s.req := rfl
@[simp] theorem addrR_rep : (addrR s).rep = s.rep := rfl
@[simp] theorem addrR_rxHead : (addrR s).rxHead = s.rxHead := rfl
@[simp] theorem addrR_txHead : (addrR s).txHead = s.txHead := rfl
@[simp] theorem addrR_frameSeq : (addrR s).frameSeq = s.frameSeq := rfl
@[simp] theorem addrR_phase : (addrR s).phase = s.phase := rfl
@[simp] theorem addrR_rxOvf : (addrR s).rxOvf = s.rxOvf := rfl
@[simp] theorem addrR_txOvf : (addrR s).txOvf = s.txOvf := rfl
@[simp] theorem addrR_diag : (addrR s).diag = s.diag := rfl
@[simp] theorem addrR_be : (addrR s).be = s.be := rfl
@[simp] theorem addrR_bitcnt : (addrR s).bitcnt = s.bitcnt := rfl
@[simp] theorem addrR_sr : (addrR s).sr = s.sr := rfl
@[simp] theorem addrR_rw : (addrR s).rw = true := rfl
@[simp] theorem addrR_matched : (addrR s).matched = true := rfl
@[simp] theorem addrR_firstPending : (addrR s).firstPending = s.firstPending := rfl
@[simp] theorem addrR_nack : (addrR s).nack = s.nack := rfl
@[simp] theorem addrR_sclQ : (addrR s).sclQ = s.sclQ := rfl
@[simp] theorem addrR_sdaQ : (addrR s).sdaQ = s.sdaQ := rfl
@[simp] theorem addrR_sdaOut : (addrR s).sdaOut = false := rfl
@[simp] theorem addrR_sclOut : (addrR s).sclOut = s.sclOut := rfl
@[simp] theorem addrR_hold : (addrR s).hold = s.hold := rfl
@[simp] theorem addrR_rxq : (addrR s).rxq = s.rxq := rfl
@[simp] theorem addrR_txq : (addrR s).txq = s.txq := rfl
@[simp] theorem addrR_seqState : (addrR s).seqState = s.seqState := rfl
@[simp] theorem addrR_draws : (addrR s).draws = s.draws := rfl
@[simp] theorem addrR_expect : (addrR s).expect = s.expect := rfl
@[simp] theorem addrR_ret : (addrR s).ret = s.ret := rfl
@[simp] theorem addrR_input : (addrR s).input = s.input := rfl

@[simp] theorem addrOther_cfg : (addrOther s).cfg = s.cfg := rfl
@[simp] theorem addrOther_req : (addrOther s).req = s.req := rfl
@[simp] theorem addrOther_rep : (addrOther s).rep = s.rep := rfl
@[simp] theorem addrOther_rxHead : (addrOther s).rxHead = s.rxHead := rfl
@[simp] theorem addrOther_txHead : (addrOther s).txHead = s.txHead := rfl
@[simp] theorem addrOther_frameSeq : (addrOther s).frameSeq = s.frameSeq := rfl
@[simp] theorem addrOther_phase : (addrOther s).phase = s.phase := rfl
@[simp] theorem addrOther_rxOvf : (addrOther s).rxOvf = s.rxOvf := rfl
@[simp] theorem addrOther_txOvf : (addrOther s).txOvf = s.txOvf := rfl
@[simp] theorem addrOther_diag : (addrOther s).diag = s.diag := rfl
@[simp] theorem addrOther_be : (addrOther s).be = .wait := rfl
@[simp] theorem addrOther_bitcnt : (addrOther s).bitcnt = s.bitcnt := rfl
@[simp] theorem addrOther_sr : (addrOther s).sr = s.sr := rfl
@[simp] theorem addrOther_rw : (addrOther s).rw = s.rw := rfl
@[simp] theorem addrOther_matched : (addrOther s).matched = s.matched := rfl
@[simp] theorem addrOther_firstPending : (addrOther s).firstPending = s.firstPending := rfl
@[simp] theorem addrOther_nack : (addrOther s).nack = s.nack := rfl
@[simp] theorem addrOther_sclQ : (addrOther s).sclQ = s.sclQ := rfl
@[simp] theorem addrOther_sdaQ : (addrOther s).sdaQ = s.sdaQ := rfl
@[simp] theorem addrOther_sdaOut : (addrOther s).sdaOut = true := rfl
@[simp] theorem addrOther_sclOut : (addrOther s).sclOut = s.sclOut := rfl
@[simp] theorem addrOther_hold : (addrOther s).hold = s.hold := rfl
@[simp] theorem addrOther_rxq : (addrOther s).rxq = s.rxq := rfl
@[simp] theorem addrOther_txq : (addrOther s).txq = s.txq := rfl
@[simp] theorem addrOther_seqState : (addrOther s).seqState = s.seqState := rfl
@[simp] theorem addrOther_draws : (addrOther s).draws = s.draws := rfl
@[simp] theorem addrOther_expect : (addrOther s).expect = s.expect := rfl
@[simp] theorem addrOther_ret : (addrOther s).ret = s.ret := rfl
@[simp] theorem addrOther_input : (addrOther s).input = s.input := rfl

@[simp] theorem load_cfg (d : Byte) : (load d s).cfg = s.cfg := rfl
@[simp] theorem load_req (d : Byte) : (load d s).req = s.req := rfl
@[simp] theorem load_rep (d : Byte) : (load d s).rep = s.rep := rfl
@[simp] theorem load_rxHead (d : Byte) : (load d s).rxHead = s.rxHead := rfl
@[simp] theorem load_txHead (d : Byte) : (load d s).txHead = s.txHead := rfl
@[simp] theorem load_frameSeq (d : Byte) : (load d s).frameSeq = s.frameSeq := rfl
@[simp] theorem load_phase (d : Byte) : (load d s).phase = s.phase := rfl
@[simp] theorem load_rxOvf (d : Byte) : (load d s).rxOvf = s.rxOvf := rfl
@[simp] theorem load_txOvf (d : Byte) : (load d s).txOvf = s.txOvf := rfl
@[simp] theorem load_diag (d : Byte) : (load d s).diag = s.diag := rfl
@[simp] theorem load_be (d : Byte) : (load d s).be = s.be := rfl
@[simp] theorem load_bitcnt (d : Byte) : (load d s).bitcnt = 0 := rfl
@[simp] theorem load_sr (d : Byte) : (load d s).sr = d := rfl
@[simp] theorem load_rw (d : Byte) : (load d s).rw = s.rw := rfl
@[simp] theorem load_matched (d : Byte) : (load d s).matched = s.matched := rfl
@[simp] theorem load_firstPending (d : Byte) : (load d s).firstPending = s.firstPending := rfl
@[simp] theorem load_nack (d : Byte) : (load d s).nack = s.nack := rfl
@[simp] theorem load_sclQ (d : Byte) : (load d s).sclQ = s.sclQ := rfl
@[simp] theorem load_sdaQ (d : Byte) : (load d s).sdaQ = s.sdaQ := rfl
@[simp] theorem load_sdaOut (d : Byte) : (load d s).sdaOut = d.getLsbD 7 := rfl
@[simp] theorem load_sclOut (d : Byte) : (load d s).sclOut = s.sclOut := rfl
@[simp] theorem load_hold (d : Byte) : (load d s).hold = s.hold := rfl
@[simp] theorem load_rxq (d : Byte) : (load d s).rxq = s.rxq := rfl
@[simp] theorem load_txq (d : Byte) : (load d s).txq = s.txq := rfl
@[simp] theorem load_seqState (d : Byte) : (load d s).seqState = s.seqState := rfl
@[simp] theorem load_draws (d : Byte) : (load d s).draws = s.draws := rfl
@[simp] theorem load_expect (d : Byte) : (load d s).expect = s.expect := rfl
@[simp] theorem load_ret (d : Byte) : (load d s).ret = s.ret := rfl
@[simp] theorem load_input (d : Byte) : (load d s).input = s.input := rfl

@[simp] theorem holdTxqEmpty_cfg : (holdTxqEmpty s).cfg = s.cfg := rfl
@[simp] theorem holdTxqEmpty_req : (holdTxqEmpty s).req = s.req := rfl
@[simp] theorem holdTxqEmpty_rep : (holdTxqEmpty s).rep = s.rep := rfl
@[simp] theorem holdTxqEmpty_rxHead : (holdTxqEmpty s).rxHead = s.rxHead := rfl
@[simp] theorem holdTxqEmpty_txHead : (holdTxqEmpty s).txHead = s.txHead := rfl
@[simp] theorem holdTxqEmpty_frameSeq : (holdTxqEmpty s).frameSeq = s.frameSeq := rfl
@[simp] theorem holdTxqEmpty_phase : (holdTxqEmpty s).phase = s.phase := rfl
@[simp] theorem holdTxqEmpty_rxOvf : (holdTxqEmpty s).rxOvf = s.rxOvf := rfl
@[simp] theorem holdTxqEmpty_txOvf : (holdTxqEmpty s).txOvf = s.txOvf := rfl
@[simp] theorem holdTxqEmpty_diag : (holdTxqEmpty s).diag = s.diag := rfl
@[simp] theorem holdTxqEmpty_be : (holdTxqEmpty s).be = s.be := rfl
@[simp] theorem holdTxqEmpty_bitcnt : (holdTxqEmpty s).bitcnt = 0 := rfl
@[simp] theorem holdTxqEmpty_sr : (holdTxqEmpty s).sr = s.sr := rfl
@[simp] theorem holdTxqEmpty_rw : (holdTxqEmpty s).rw = s.rw := rfl
@[simp] theorem holdTxqEmpty_matched : (holdTxqEmpty s).matched = s.matched := rfl
@[simp] theorem holdTxqEmpty_firstPending : (holdTxqEmpty s).firstPending = s.firstPending := rfl
@[simp] theorem holdTxqEmpty_nack : (holdTxqEmpty s).nack = s.nack := rfl
@[simp] theorem holdTxqEmpty_sclQ : (holdTxqEmpty s).sclQ = s.sclQ := rfl
@[simp] theorem holdTxqEmpty_sdaQ : (holdTxqEmpty s).sdaQ = s.sdaQ := rfl
@[simp] theorem holdTxqEmpty_sdaOut : (holdTxqEmpty s).sdaOut = s.sdaOut := rfl
@[simp] theorem holdTxqEmpty_sclOut : (holdTxqEmpty s).sclOut = false := rfl
@[simp] theorem holdTxqEmpty_hold : (holdTxqEmpty s).hold = .txqEmpty := rfl
@[simp] theorem holdTxqEmpty_rxq : (holdTxqEmpty s).rxq = s.rxq := rfl
@[simp] theorem holdTxqEmpty_txq : (holdTxqEmpty s).txq = s.txq := rfl
@[simp] theorem holdTxqEmpty_seqState : (holdTxqEmpty s).seqState = s.seqState := rfl
@[simp] theorem holdTxqEmpty_draws : (holdTxqEmpty s).draws = s.draws := rfl
@[simp] theorem holdTxqEmpty_expect : (holdTxqEmpty s).expect = s.expect := rfl
@[simp] theorem holdTxqEmpty_ret : (holdTxqEmpty s).ret = s.ret := rfl
@[simp] theorem holdTxqEmpty_input : (holdTxqEmpty s).input = s.input := rfl

@[simp] theorem holdRxqFull_cfg : (holdRxqFull s).cfg = s.cfg := rfl
@[simp] theorem holdRxqFull_req : (holdRxqFull s).req = s.req := rfl
@[simp] theorem holdRxqFull_rep : (holdRxqFull s).rep = s.rep := rfl
@[simp] theorem holdRxqFull_rxHead : (holdRxqFull s).rxHead = s.rxHead := rfl
@[simp] theorem holdRxqFull_txHead : (holdRxqFull s).txHead = s.txHead := rfl
@[simp] theorem holdRxqFull_frameSeq : (holdRxqFull s).frameSeq = s.frameSeq := rfl
@[simp] theorem holdRxqFull_phase : (holdRxqFull s).phase = s.phase := rfl
@[simp] theorem holdRxqFull_rxOvf : (holdRxqFull s).rxOvf = s.rxOvf := rfl
@[simp] theorem holdRxqFull_txOvf : (holdRxqFull s).txOvf = s.txOvf := rfl
@[simp] theorem holdRxqFull_diag : (holdRxqFull s).diag = s.diag := rfl
@[simp] theorem holdRxqFull_be : (holdRxqFull s).be = s.be := rfl
@[simp] theorem holdRxqFull_bitcnt : (holdRxqFull s).bitcnt = s.bitcnt := rfl
@[simp] theorem holdRxqFull_sr : (holdRxqFull s).sr = s.sr := rfl
@[simp] theorem holdRxqFull_rw : (holdRxqFull s).rw = s.rw := rfl
@[simp] theorem holdRxqFull_matched : (holdRxqFull s).matched = s.matched := rfl
@[simp] theorem holdRxqFull_firstPending : (holdRxqFull s).firstPending = s.firstPending := rfl
@[simp] theorem holdRxqFull_nack : (holdRxqFull s).nack = s.nack := rfl
@[simp] theorem holdRxqFull_sclQ : (holdRxqFull s).sclQ = s.sclQ := rfl
@[simp] theorem holdRxqFull_sdaQ : (holdRxqFull s).sdaQ = s.sdaQ := rfl
@[simp] theorem holdRxqFull_sdaOut : (holdRxqFull s).sdaOut = s.sdaOut := rfl
@[simp] theorem holdRxqFull_sclOut : (holdRxqFull s).sclOut = false := rfl
@[simp] theorem holdRxqFull_hold : (holdRxqFull s).hold = .rxqFull := rfl
@[simp] theorem holdRxqFull_rxq : (holdRxqFull s).rxq = s.rxq := rfl
@[simp] theorem holdRxqFull_txq : (holdRxqFull s).txq = s.txq := rfl
@[simp] theorem holdRxqFull_seqState : (holdRxqFull s).seqState = s.seqState := rfl
@[simp] theorem holdRxqFull_draws : (holdRxqFull s).draws = s.draws := rfl
@[simp] theorem holdRxqFull_expect : (holdRxqFull s).expect = s.expect := rfl
@[simp] theorem holdRxqFull_ret : (holdRxqFull s).ret = s.ret := rfl
@[simp] theorem holdRxqFull_input : (holdRxqFull s).input = s.input := rfl

@[simp] theorem acceptByte_cfg : (acceptByte s).cfg = s.cfg := rfl
@[simp] theorem acceptByte_req : (acceptByte s).req = s.req := rfl
@[simp] theorem acceptByte_rep : (acceptByte s).rep = s.rep := rfl
@[simp] theorem acceptByte_rxHead : (acceptByte s).rxHead = s.rxHead := rfl
@[simp] theorem acceptByte_txHead : (acceptByte s).txHead = s.txHead := rfl
@[simp] theorem acceptByte_frameSeq : (acceptByte s).frameSeq = s.frameSeq := rfl
@[simp] theorem acceptByte_phase : (acceptByte s).phase = s.phase := rfl
@[simp] theorem acceptByte_rxOvf : (acceptByte s).rxOvf = s.rxOvf := rfl
@[simp] theorem acceptByte_txOvf : (acceptByte s).txOvf = s.txOvf := rfl
@[simp] theorem acceptByte_diag : (acceptByte s).diag = s.diag := rfl
@[simp] theorem acceptByte_be : (acceptByte s).be = s.be := rfl
@[simp] theorem acceptByte_bitcnt : (acceptByte s).bitcnt = s.bitcnt := rfl
@[simp] theorem acceptByte_sr : (acceptByte s).sr = s.sr := rfl
@[simp] theorem acceptByte_rw : (acceptByte s).rw = s.rw := rfl
@[simp] theorem acceptByte_matched : (acceptByte s).matched = s.matched := rfl
@[simp] theorem acceptByte_firstPending : (acceptByte s).firstPending = false := rfl
@[simp] theorem acceptByte_nack : (acceptByte s).nack = s.nack := rfl
@[simp] theorem acceptByte_sclQ : (acceptByte s).sclQ = s.sclQ := rfl
@[simp] theorem acceptByte_sdaQ : (acceptByte s).sdaQ = s.sdaQ := rfl
@[simp] theorem acceptByte_sdaOut : (acceptByte s).sdaOut = false := rfl
@[simp] theorem acceptByte_sclOut : (acceptByte s).sclOut = s.sclOut := rfl
@[simp] theorem acceptByte_hold : (acceptByte s).hold = s.hold := rfl
@[simp] theorem acceptByte_rxq : (acceptByte s).rxq = s.rxq ++ [s.sr] := rfl
@[simp] theorem acceptByte_txq : (acceptByte s).txq = s.txq := rfl
@[simp] theorem acceptByte_seqState : (acceptByte s).seqState = s.seqState := rfl
@[simp] theorem acceptByte_draws : (acceptByte s).draws = s.draws := rfl
@[simp] theorem acceptByte_expect : (acceptByte s).expect = s.expect := rfl
@[simp] theorem acceptByte_ret : (acceptByte s).ret = s.ret := rfl
@[simp] theorem acceptByte_input : (acceptByte s).input = s.input := rfl

@[simp] theorem endDataAck_cfg : (endDataAck s).cfg = s.cfg := rfl
@[simp] theorem endDataAck_req : (endDataAck s).req = s.req := rfl
@[simp] theorem endDataAck_rep : (endDataAck s).rep = s.rep := rfl
@[simp] theorem endDataAck_rxHead : (endDataAck s).rxHead = s.rxHead := rfl
@[simp] theorem endDataAck_txHead : (endDataAck s).txHead = s.txHead := rfl
@[simp] theorem endDataAck_frameSeq : (endDataAck s).frameSeq = s.frameSeq := rfl
@[simp] theorem endDataAck_phase : (endDataAck s).phase = s.phase := rfl
@[simp] theorem endDataAck_rxOvf : (endDataAck s).rxOvf = s.rxOvf := rfl
@[simp] theorem endDataAck_txOvf : (endDataAck s).txOvf = s.txOvf := rfl
@[simp] theorem endDataAck_diag : (endDataAck s).diag = s.diag := rfl
@[simp] theorem endDataAck_be : (endDataAck s).be = s.be := rfl
@[simp] theorem endDataAck_bitcnt : (endDataAck s).bitcnt = 0 := rfl
@[simp] theorem endDataAck_sr : (endDataAck s).sr = s.sr := rfl
@[simp] theorem endDataAck_rw : (endDataAck s).rw = s.rw := rfl
@[simp] theorem endDataAck_matched : (endDataAck s).matched = s.matched := rfl
@[simp] theorem endDataAck_firstPending : (endDataAck s).firstPending = s.firstPending := rfl
@[simp] theorem endDataAck_nack : (endDataAck s).nack = s.nack := rfl
@[simp] theorem endDataAck_sclQ : (endDataAck s).sclQ = s.sclQ := rfl
@[simp] theorem endDataAck_sdaQ : (endDataAck s).sdaQ = s.sdaQ := rfl
@[simp] theorem endDataAck_sdaOut : (endDataAck s).sdaOut = true := rfl
@[simp] theorem endDataAck_sclOut : (endDataAck s).sclOut = s.sclOut := rfl
@[simp] theorem endDataAck_hold : (endDataAck s).hold = s.hold := rfl
@[simp] theorem endDataAck_rxq : (endDataAck s).rxq = s.rxq := rfl
@[simp] theorem endDataAck_txq : (endDataAck s).txq = s.txq := rfl
@[simp] theorem endDataAck_seqState : (endDataAck s).seqState = s.seqState := rfl
@[simp] theorem endDataAck_draws : (endDataAck s).draws = s.draws := rfl
@[simp] theorem endDataAck_expect : (endDataAck s).expect = s.expect := rfl
@[simp] theorem endDataAck_ret : (endDataAck s).ret = s.ret := rfl
@[simp] theorem endDataAck_input : (endDataAck s).input = s.input := rfl

@[simp] theorem driveNextBit_cfg : (driveNextBit s).cfg = s.cfg := rfl
@[simp] theorem driveNextBit_req : (driveNextBit s).req = s.req := rfl
@[simp] theorem driveNextBit_rep : (driveNextBit s).rep = s.rep := rfl
@[simp] theorem driveNextBit_rxHead : (driveNextBit s).rxHead = s.rxHead := rfl
@[simp] theorem driveNextBit_txHead : (driveNextBit s).txHead = s.txHead := rfl
@[simp] theorem driveNextBit_frameSeq : (driveNextBit s).frameSeq = s.frameSeq := rfl
@[simp] theorem driveNextBit_phase : (driveNextBit s).phase = s.phase := rfl
@[simp] theorem driveNextBit_rxOvf : (driveNextBit s).rxOvf = s.rxOvf := rfl
@[simp] theorem driveNextBit_txOvf : (driveNextBit s).txOvf = s.txOvf := rfl
@[simp] theorem driveNextBit_diag : (driveNextBit s).diag = s.diag := rfl
@[simp] theorem driveNextBit_be : (driveNextBit s).be = s.be := rfl
@[simp] theorem driveNextBit_bitcnt : (driveNextBit s).bitcnt = s.bitcnt := rfl
@[simp] theorem driveNextBit_sr : (driveNextBit s).sr = s.sr := rfl
@[simp] theorem driveNextBit_rw : (driveNextBit s).rw = s.rw := rfl
@[simp] theorem driveNextBit_matched : (driveNextBit s).matched = s.matched := rfl
@[simp] theorem driveNextBit_firstPending : (driveNextBit s).firstPending = s.firstPending := rfl
@[simp] theorem driveNextBit_nack : (driveNextBit s).nack = s.nack := rfl
@[simp] theorem driveNextBit_sclQ : (driveNextBit s).sclQ = s.sclQ := rfl
@[simp] theorem driveNextBit_sdaQ : (driveNextBit s).sdaQ = s.sdaQ := rfl
@[simp] theorem driveNextBit_sdaOut : (driveNextBit s).sdaOut = bitToSend s.sr s.bitcnt.toNat := rfl
@[simp] theorem driveNextBit_sclOut : (driveNextBit s).sclOut = s.sclOut := rfl
@[simp] theorem driveNextBit_hold : (driveNextBit s).hold = s.hold := rfl
@[simp] theorem driveNextBit_rxq : (driveNextBit s).rxq = s.rxq := rfl
@[simp] theorem driveNextBit_txq : (driveNextBit s).txq = s.txq := rfl
@[simp] theorem driveNextBit_seqState : (driveNextBit s).seqState = s.seqState := rfl
@[simp] theorem driveNextBit_draws : (driveNextBit s).draws = s.draws := rfl
@[simp] theorem driveNextBit_expect : (driveNextBit s).expect = s.expect := rfl
@[simp] theorem driveNextBit_ret : (driveNextBit s).ret = s.ret := rfl
@[simp] theorem driveNextBit_input : (driveNextBit s).input = s.input := rfl

@[simp] theorem releaseForAck_cfg : (releaseForAck s).cfg = s.cfg := rfl
@[simp] theorem releaseForAck_req : (releaseForAck s).req = s.req := rfl
@[simp] theorem releaseForAck_rep : (releaseForAck s).rep = s.rep := rfl
@[simp] theorem releaseForAck_rxHead : (releaseForAck s).rxHead = s.rxHead := rfl
@[simp] theorem releaseForAck_txHead : (releaseForAck s).txHead = s.txHead := rfl
@[simp] theorem releaseForAck_frameSeq : (releaseForAck s).frameSeq = s.frameSeq := rfl
@[simp] theorem releaseForAck_phase : (releaseForAck s).phase = s.phase := rfl
@[simp] theorem releaseForAck_rxOvf : (releaseForAck s).rxOvf = s.rxOvf := rfl
@[simp] theorem releaseForAck_txOvf : (releaseForAck s).txOvf = s.txOvf := rfl
@[simp] theorem releaseForAck_diag : (releaseForAck s).diag = s.diag := rfl
@[simp] theorem releaseForAck_be : (releaseForAck s).be = s.be := rfl
@[simp] theorem releaseForAck_bitcnt : (releaseForAck s).bitcnt = s.bitcnt := rfl
@[simp] theorem releaseForAck_sr : (releaseForAck s).sr = s.sr := rfl
@[simp] theorem releaseForAck_rw : (releaseForAck s).rw = s.rw := rfl
@[simp] theorem releaseForAck_matched : (releaseForAck s).matched = s.matched := rfl
@[simp] theorem releaseForAck_firstPending : (releaseForAck s).firstPending = s.firstPending := rfl
@[simp] theorem releaseForAck_nack : (releaseForAck s).nack = s.nack := rfl
@[simp] theorem releaseForAck_sclQ : (releaseForAck s).sclQ = s.sclQ := rfl
@[simp] theorem releaseForAck_sdaQ : (releaseForAck s).sdaQ = s.sdaQ := rfl
@[simp] theorem releaseForAck_sdaOut : (releaseForAck s).sdaOut = true := rfl
@[simp] theorem releaseForAck_sclOut : (releaseForAck s).sclOut = s.sclOut := rfl
@[simp] theorem releaseForAck_hold : (releaseForAck s).hold = s.hold := rfl
@[simp] theorem releaseForAck_rxq : (releaseForAck s).rxq = s.rxq := rfl
@[simp] theorem releaseForAck_txq : (releaseForAck s).txq = s.txq := rfl
@[simp] theorem releaseForAck_seqState : (releaseForAck s).seqState = s.seqState := rfl
@[simp] theorem releaseForAck_draws : (releaseForAck s).draws = s.draws := rfl
@[simp] theorem releaseForAck_expect : (releaseForAck s).expect = s.expect := rfl
@[simp] theorem releaseForAck_ret : (releaseForAck s).ret = s.ret := rfl
@[simp] theorem releaseForAck_input : (releaseForAck s).input = s.input := rfl

@[simp] theorem rememberLines_cfg (sclC sdaC : Bool) :
    (rememberLines sclC sdaC s).cfg = s.cfg := rfl
@[simp] theorem rememberLines_req (sclC sdaC : Bool) :
    (rememberLines sclC sdaC s).req = s.req := rfl
@[simp] theorem rememberLines_rep (sclC sdaC : Bool) :
    (rememberLines sclC sdaC s).rep = s.rep := rfl
@[simp] theorem rememberLines_rxHead (sclC sdaC : Bool) :
    (rememberLines sclC sdaC s).rxHead = s.rxHead := rfl
@[simp] theorem rememberLines_txHead (sclC sdaC : Bool) :
    (rememberLines sclC sdaC s).txHead = s.txHead := rfl
@[simp] theorem rememberLines_frameSeq (sclC sdaC : Bool) :
    (rememberLines sclC sdaC s).frameSeq = s.frameSeq := rfl
@[simp] theorem rememberLines_phase (sclC sdaC : Bool) :
    (rememberLines sclC sdaC s).phase = s.phase := rfl
@[simp] theorem rememberLines_rxOvf (sclC sdaC : Bool) :
    (rememberLines sclC sdaC s).rxOvf = s.rxOvf := rfl
@[simp] theorem rememberLines_txOvf (sclC sdaC : Bool) :
    (rememberLines sclC sdaC s).txOvf = s.txOvf := rfl
@[simp] theorem rememberLines_diag (sclC sdaC : Bool) :
    (rememberLines sclC sdaC s).diag = s.diag := rfl
@[simp] theorem rememberLines_be (sclC sdaC : Bool) :
    (rememberLines sclC sdaC s).be = s.be := rfl
@[simp] theorem rememberLines_bitcnt (sclC sdaC : Bool) :
    (rememberLines sclC sdaC s).bitcnt = s.bitcnt := rfl
@[simp] theorem rememberLines_sr (sclC sdaC : Bool) :
    (rememberLines sclC sdaC s).sr = s.sr := rfl
@[simp] theorem rememberLines_rw (sclC sdaC : Bool) :
    (rememberLines sclC sdaC s).rw = s.rw := rfl
@[simp] theorem rememberLines_matched (sclC sdaC : Bool) :
    (rememberLines sclC sdaC s).matched = s.matched := rfl
@[simp] theorem rememberLines_firstPending (sclC sdaC : Bool) :
    (rememberLines sclC sdaC s).firstPending = s.firstPending := rfl
@[simp] theorem rememberLines_nack (sclC sdaC : Bool) :
    (rememberLines sclC sdaC s).nack = s.nack := rfl
@[simp] theorem rememberLines_sclQ (sclC sdaC : Bool) :
    (rememberLines sclC sdaC s).sclQ = (sclC && s.sclOut) := rfl
@[simp] theorem rememberLines_sdaQ (sclC sdaC : Bool) :
    (rememberLines sclC sdaC s).sdaQ = (sdaC && s.sdaOut) := rfl
@[simp] theorem rememberLines_sdaOut (sclC sdaC : Bool) :
    (rememberLines sclC sdaC s).sdaOut = s.sdaOut := rfl
@[simp] theorem rememberLines_sclOut (sclC sdaC : Bool) :
    (rememberLines sclC sdaC s).sclOut = s.sclOut := rfl
@[simp] theorem rememberLines_hold (sclC sdaC : Bool) :
    (rememberLines sclC sdaC s).hold = s.hold := rfl
@[simp] theorem rememberLines_rxq (sclC sdaC : Bool) :
    (rememberLines sclC sdaC s).rxq = s.rxq := rfl
@[simp] theorem rememberLines_txq (sclC sdaC : Bool) :
    (rememberLines sclC sdaC s).txq = s.txq := rfl
@[simp] theorem rememberLines_seqState (sclC sdaC : Bool) :
    (rememberLines sclC sdaC s).seqState = s.seqState := rfl
@[simp] theorem rememberLines_draws (sclC sdaC : Bool) :
    (rememberLines sclC sdaC s).draws = s.draws := rfl
@[simp] theorem rememberLines_expect (sclC sdaC : Bool) :
    (rememberLines sclC sdaC s).expect = expectAfter sclC sdaC s := rfl
@[simp] theorem rememberLines_ret (sclC sdaC : Bool) :
    (rememberLines sclC sdaC s).ret = s.ret := rfl
@[simp] theorem rememberLines_input (sclC sdaC : Bool) :
    (rememberLines sclC sdaC s).input = s.input := rfl

end Sys2Proof.Machine
end

