-- ==== Sys2Proof/Tests/Slice0.lean ====
section
/-! SUPPORT. Tests whose expected results are the spec's own (95_test_vectors.md, named V-…, S-…, PRG-…; or
the encoding tables of 30_encoding.md), and for each statement with hypotheses a witness that meets them. -/

namespace Sys2Proof.Tests

open Sys2Proof Sys2Proof.Machine

/-- The device of variant B, right after reset. -/
def devB : State := State.reset

/-- The device of variant A, right after reset. -/
def devA : State := { State.reset with cfg := { Config.suggested with variant := .aPolled } }

/-- The two devices after a sample of an idle bus. -/
def awakeB : State := { devB with expect := .anything }

/-- See `awakeB`. -/
def awakeA : State := { devA with expect := .anything }

/-- The next state, if the outcome is one. -/
def after (o : Host.Outcome State Fault Refusal) : Option State :=
  match o with
  | .next s => some s
  | .fault _ => none
  | .refused _ => none

/-- One observation of the next state. -/
def seen {α : Type} (f : State → α) (o : Host.Outcome State Fault Refusal) : Option α := (after o).map f

/-- The refusal, if the outcome is one. -/
def refusal (o : Host.Outcome State Fault Refusal) : Option Refusal :=
  match o with
  | .next _ => none
  | .fault _ => none
  | .refused r => some r

/-- S-1: the reply to an Identify request with the counter at 0. -/
def identifyReply : ReplyFrame :=
  #v[0x48, 0x61, 0x6E, 0x64, 0x72, 0x61, 0x64, 0x20, 0x30, 0x30, 0x30, 0x31, 0x03, 0x00, 0x4A]

/-- V-MT3: the Challenge payload. -/
def challengePayload : Payload := #v[0x3B, 0x59, 0xE8, 0x2A, 0xE9, 0xB1, 0xBE, 0xD8, 0, 0, 0, 0]

/-- V-MT1: the Normal payload. -/
def normalPayload : Payload := #v[0xFF, 0xFF, 0, 0, 0, 0, 0, 0, 0, 0, 0, 0]

/-! ### WellFormed refuses each ill-formed operand -/

theorem test_wellFormed_refuses_own_address : (Instr.addrOther 4 false).wellFormed = false := by decide

theorem test_wellFormed_refuses_exact_modes_as_fallback :
    (Instr.modeFallback 1).wellFormed = false ∧ (Instr.modeFallback 3).wellFormed = false ∧
    (Instr.modeFallback 4).wellFormed = false ∧ (Instr.modeFallback 5).wellFormed = false := by decide

theorem test_wellFormed_refuses_empty_reserved_words :
    (Instr.ewReservedStart 0).wellFormed = false ∧ (Instr.ewReservedStop 0).wellFormed = false ∧
    (Instr.ewReservedReq 0).wellFormed = false := by decide

/-! ### Words written out from the encoding tables -/

/-- V-EN1 to V-EN3. -/
theorem test_decode_AB :
    decode ⟨.ab, [0b00001000]⟩ = .ok .addrW ∧ decode ⟨.ab, [0b00001001]⟩ = .ok .addrR ∧
    decode ⟨.ab, [0x0A]⟩ = .ok (.addrOther 0b0000101 false) ∧
    decode ⟨.ab, [0x88]⟩ = .ok (.addrOther 0b1000100 false) ∧
    decode ⟨.ab, [0xFF]⟩ = .ok (.addrOther 0b1111111 true) := by decide

/-- 30_encoding.md R70. -/
theorem test_decode_RQ0 :
    decode ⟨.rq0, [1]⟩ = .ok .modeNormal ∧ decode ⟨.rq0, [3]⟩ = .ok .modeIdentify ∧
    decode ⟨.rq0, [4]⟩ = .ok .modeChallenge ∧ decode ⟨.rq0, [5]⟩ = .ok .modeSerial ∧
    decode ⟨.rq0, [0]⟩ = .ok (.modeFallback 0) ∧ decode ⟨.rq0, [0x83]⟩ = .ok (.modeFallback 0x83) := by decide

/-- V-EN4 to V-EN8; the low byte of a word comes first. -/
theorem test_decode_EW :
    decode ⟨.ew, [0x00, 0x00]⟩ = .ok .evStart ∧ decode ⟨.ew, [0x00, 0x02]⟩ = .ok .evStop ∧
    decode ⟨.ew, [0x03, 0x05]⟩ = .ok (.evByteRx 0x03 true) ∧
    decode ⟨.ew, [0xAA, 0x04]⟩ = .ok (.evByteRx 0xAA false) ∧
    decode ⟨.ew, [0x00, 0x06]⟩ = .ok .evByteReq := by decide

/-- V-EN9. -/
theorem test_decode_EW_reserved :
    decode ⟨.ew, [0x01, 0x00]⟩ = .ok (.ewReservedStart 1) ∧
    decode ⟨.ew, [0xFF, 0x02]⟩ = .ok (.ewReservedStop 0xFF) ∧
    decode ⟨.ew, [0x01, 0x06]⟩ = .ok (.ewReservedReq 1) ∧
    decode ⟨.ew, [0xFF, 0x07]⟩ = .ok (.ewReservedReq 0x1FF) := by decide

/-- V-EN10 to V-EN13 and the six codes of `LC_NOP` (30_encoding.md R80). -/
theorem test_decode_LC :
    decode ⟨.lc, [0b0000]⟩ = .ok .lcNop0000 ∧ decode ⟨.lc, [0b0001]⟩ = .ok .lcNop0001 ∧
    decode ⟨.lc, [0b0010]⟩ = .ok .lcRise0010 ∧ decode ⟨.lc, [0b0011]⟩ = .ok .lcReserved0011 ∧
    decode ⟨.lc, [0b0100]⟩ = .ok .lcNop0100 ∧ decode ⟨.lc, [0b0101]⟩ = .ok .lcNop0101 ∧
    decode ⟨.lc, [0b0110]⟩ = .ok .lcReserved0110 ∧ decode ⟨.lc, [0b0111]⟩ = .ok .lcRise0111 ∧
    decode ⟨.lc, [0b1000]⟩ = .ok .lcFall1000 ∧ decode ⟨.lc, [0b1001]⟩ = .ok .lcReserved1001 ∧
    decode ⟨.lc, [0b1010]⟩ = .ok .lcNop1010 ∧ decode ⟨.lc, [0b1011]⟩ = .ok .lcStop ∧
    decode ⟨.lc, [0b1100]⟩ = .ok .lcReserved1100 ∧ decode ⟨.lc, [0b1101]⟩ = .ok .lcFall1101 ∧
    decode ⟨.lc, [0b1110]⟩ = .ok .lcStart ∧ decode ⟨.lc, [0b1111]⟩ = .ok .lcNop1111 := by decide

/-- V-EN14. -/
theorem test_decode_SQ :
    decode ⟨.sq, [0x00]⟩ = .ok .sqPoll ∧ decode ⟨.sq, [0x13]⟩ = .ok (.sqRead 3) ∧
    decode ⟨.sq, [0x18]⟩ = .ok (.sqRead 8) ∧ decode ⟨.sq, [0x20]⟩ = .ok .sqCompose ∧
    decode ⟨.sq, [0x30]⟩ = .ok (.sqWrite 0) ∧ decode ⟨.sq, [0x3E]⟩ = .ok (.sqWrite 14) := by decide

/-- The model's own numbers of the operations that have no encoding (log 6). -/
theorem test_decode_FN_CTL :
    decode ⟨.fn, [0]⟩ = .ok .compose ∧ decode ⟨.fn, [1, 0x43]⟩ = .ok (.lookup 0x43) ∧
    decode ⟨.fn, [2, 1, 2, 3, 4, 5, 6, 7, 8, 9, 10, 11, 12, 13]⟩ =
      .ok (.buildReply #v[1, 2, 3, 4, 5, 6, 7, 8, 9, 10, 11, 12] 13) ∧
    decode ⟨.fn, [3, 1, 2, 3, 4, 5, 6, 7, 8, 9, 10, 11, 12, 13, 14, 15]⟩ =
      .ok (.seqStamp #v[1, 2, 3, 4, 5, 6, 7, 8, 9, 10, 11, 12, 13, 14, 15]) ∧
    decode ⟨.fn, [4, 1, 2, 3, 4, 5, 6, 7, 8, 9, 10, 11, 12, 13, 14]⟩ =
      .ok (.checksum #v[1, 2, 3, 4, 5, 6, 7, 8, 9, 10, 11, 12, 13, 14]) ∧
    decode ⟨.fn, [5, 0b10]⟩ = .ok (.sample true false) ∧
    decode ⟨.ctl, [0]⟩ = .ok .beResume ∧ decode ⟨.ctl, [1]⟩ = .ok .reset := by decide

/-- Words that are no operation, each rejected by name. -/
theorem test_decode_rejects_by_name :
    decode ⟨.ew, [0x00, 0x08]⟩ = .error .bitsAboveWidth ∧ decode ⟨.ew, [0x00]⟩ = .error .wrongLength ∧
    decode ⟨.lc, [0x10]⟩ = .error .bitsAboveWidth ∧ decode ⟨.sq, [0x40]⟩ = .error .bitsAboveWidth ∧
    decode ⟨.sq, [0x19]⟩ = .error .reservedSequencerCode ∧
    decode ⟨.sq, [0x3F]⟩ = .error .reservedSequencerCode ∧
    decode ⟨.fn, [6]⟩ = .error .unknownOperation ∧ decode ⟨.ctl, [2]⟩ = .error .unknownOperation := by decide

/-- The table's words reach the decoder: 4, 6, 8 and 11 or 16 bits (log 7). -/
theorem test_table_words :
    decodeTableWord 4 0b1110 = some .lcStart ∧ decodeTableWord 6 0x20 = some .sqCompose ∧
    decodeTableWord 8 0x09 = some .addrR ∧ decodeTableWord 8 0x04 = some .modeChallenge ∧
    decodeTableWord 8 0x0E = some .lcStart ∧ decodeTableWord 8 0x3E = some (.sqWrite 14) ∧
    decodeTableWord 16 0x503 = some (.evByteRx 3 true) ∧ decodeTableWord 11 0x600 = some .evByteReq := by decide

/-- PRG-1: the event words of the Identify exchange. -/
theorem test_script_words_PRG1 :
    (scriptEvents .no (reqmScript 3 ++ read15Script)).map (fun i => (encode i).bytes) =
      [[0x00, 0x00], [0x03, 0x05]] ++ List.replicate 8 [0x00, 0x04] ++ [[0x00, 0x02], [0x00, 0x00]] ++
      List.replicate 15 [0x00, 0x06] ++ [[0x00, 0x02]] := by decide

/-- PRG-7: traffic for other devices is starts and stops only; a repeated start joins request and read. -/
theorem test_script_events_PRG7 :
    scriptEvents .no [.s, .a 0x0A, .w 0x55, .w 0x66, .p, .s, .a 0x21, .rn, .p] =
      [.evStart, .evStop, .evStart, .evStop] ∧
    scriptEvents .no (xferScript 4) =
      [.evStart, .evByteRx 4 true] ++ List.replicate 8 (.evByteRx 0 false) ++ [.evStart] ++
      List.replicate 15 .evByteReq ++ [.evStop] := by decide

/-! ### Reset and the observation port -/

/-- 10_state.md R38, R39: what the port shows right after reset. -/
theorem test_obs_after_reset :
    obs devB = .inB .idle 0 0 0 false false #v[0, 0, 0, 0, 0, 0, 0, 0, 0]
      #v[0, 0, 0, 0, 0, 0, 0, 0, 0, 0, 0, 0, 0, 0, 0] := by decide

/-- A device of variant A that hangs in a fetch, with a history. -/
def hungA : State :=
  { devA with frameSeq := 37, rxq := [1, 2], seqState := .read 4, be := .tx, hold := .txqEmpty, sclOut := false,
              rep := identifyReply }

/-- V-RS1. -/
theorem test_RESET :
    seen (fun t => (t.frameSeq, t.rxq, t.seqState)) (exec .reset hungA) = some (0, [], .poll) ∧
    seen State.rep (exec .reset hungA) = some devA.rep := by decide

/-- V-RS3: the lines are released. -/
theorem test_RESET_ends_a_hold :
    seen (fun t => (t.be, t.hold, t.sdaOut, t.sclOut)) (exec .reset hungA) =
      some (.idle, .none, true, true) := by decide

/-! ### Frame Codec and Mode Table -/

/-- V-CK3 and V-CK13. -/
theorem test_CHECKSUM :
    seen State.ret (exec (.checksum #v[0x48, 0x61, 0x6E, 0x64, 0x72, 0x61, 0x64, 0x20, 0x30, 0x30, 0x30, 0x31,
      0x03, 0x00]) devB) = some (.byte 0x4A) ∧
    checksum (0xFF :: List.replicate 13 0) = 0x0D := by decide

/-- V-CK8 and V-CK9: the fold depends on the order of the bytes. -/
theorem test_checksum_order :
    checksum [1, 2, 3, 4, 5, 6, 7, 8, 9, 0xA, 0xB, 0xC, 0xD, 0xE] = 0x11 ∧
    checksum [0xE, 0xD, 0xC, 0xB, 0xA, 9, 8, 7, 6, 5, 4, 3, 2, 1] = 0x2F := by decide

/-- 40_frame_codec.md R94: the counter wraps, byte 13 has it as it was. -/
theorem test_SEQ_STAMP_wraps :
    after (exec (.seqStamp identifyReply) { devB with frameSeq := 0xFF }) =
      some { devB with frameSeq := 0, ret := .frame (identifyReply.set 13 0xFF) } := by decide

/-- V-FC15. -/
theorem test_BUILD_REPLY_challenge :
    after (exec (.buildReply challengePayload 4) { devB with frameSeq := 0x80 }) =
      some { devB with
        frameSeq := 0x81
        ret := .frame #v[0x3B, 0x59, 0xE8, 0x2A, 0xE9, 0xB1, 0xBE, 0xD8, 0, 0, 0, 0, 0x04, 0x80, 0x10] } := by
  decide

/-- V-FC5: the counter wraps. -/
theorem test_BUILD_REPLY_wraps :
    after (exec (.buildReply normalPayload 1) { devB with frameSeq := 0xFF }) =
      some { devB with
        frameSeq := 0x00
        ret := .frame #v[0xFF, 0xFF, 0, 0, 0, 0, 0, 0, 0, 0, 0, 0, 0x01, 0xFF, 0xF4] } := by decide

/-- V-MT3 and V-MT10. -/
theorem test_LOOKUP :
    seen State.ret (exec (.lookup 4) devB) = some (.selected challengePayload 4) ∧
    seen State.ret (exec (.lookup 0x83) devB) = some (.selected normalPayload 1) := by decide

/-- V-MT1 to V-MT4 and V-MT9. -/
theorem test_MODES :
    seen State.ret (exec .modeNormal devB) = some (.selected normalPayload 1) ∧
    seen State.ret (exec .modeIdentify devB) =
      some (.selected #v[0x48, 0x61, 0x6E, 0x64, 0x72, 0x61, 0x64, 0x20, 0x30, 0x30, 0x30, 0x31] 3) ∧
    seen State.ret (exec .modeChallenge devB) = some (.selected challengePayload 4) ∧
    seen State.ret (exec .modeSerial devB) =
      some (.selected #v[0x41, 0x42, 0x43, 0x44, 0x31, 0x32, 0x33, 0x34, 0x35, 0x36, 0x37, 0x38] 5) ∧
    seen State.ret (exec (.modeFallback 0xFF) devB) = some (.selected normalPayload 1) := by decide

/-! ### Tracker events, variant B -/

/-- V-FC19 through `COMPOSE` (42_transaction_tracker.md R129). -/
theorem test_COMPOSE_serial :
    after (exec .compose { devB with req := #v[5, 9, 9, 9, 9, 9, 9, 9, 9], frameSeq := 2 }) =
      some { devB with
        req := #v[5, 9, 9, 9, 9, 9, 9, 9, 9]
        frameSeq := 3
        rep := #v[0x41, 0x42, 0x43, 0x44, 0x31, 0x32, 0x33, 0x34, 0x35, 0x36, 0x37, 0x38, 0x05, 0x02, 0x25] } := by
  decide

/-- V-TT2. -/
theorem test_EV_START :
    after (exec .evStart { devB with phase := .receiving, rxHead := 5 }) =
      some { devB with phase := .receiving } := by decide

/-- V-TT4. -/
theorem test_EV_STOP :
    after (exec .evStop { devB with phase := .receiving, rxHead := 9, rep := identifyReply, frameSeq := 1 }) =
      some { devB with rep := identifyReply, frameSeq := 1 } := by decide

/-- V-TT8: the tenth byte. -/
theorem test_EV_BYTE_RX_overflow :
    after (exec (.evByteRx 0x77 false) { devB with phase := .receiving, rxHead := 9, frameSeq := 1 }) =
      some { devB with phase := .receiving, frameSeq := 1, rxOvf := true, diag := [.requestOverflow] } := by decide

/-- V-TT10: `first` resets the cursor before the test. -/
theorem test_EV_BYTE_RX_first_before_overflow :
    after (exec (.evByteRx 0x04 true) { devB with phase := .receiving, rxHead := 9 }) =
      some { devB with phase := .receiving, rxHead := 1, req := #v[4, 0, 0, 0, 0, 0, 0, 0, 0] } := by decide

/-- V-TT12. -/
theorem test_EV_BYTE_REQ_last :
    after (exec .evByteReq { devB with phase := .replying, txHead := 14, rep := identifyReply }) =
      some { devB with phase := .replying, txHead := 15, rep := identifyReply, ret := .byte 0x4A } := by decide

/-- V-TT13: the returned byte is any, the rest is fixed. -/
theorem test_EV_BYTE_REQ_overflow :
    seen (fun t => (t.txHead, t.phase, t.txOvf, t.rxOvf, diagCodes t))
      (exec .evByteReq { devB with phase := .replying, txHead := 15 }) =
    some (0, .replying, true, false, [2]) := by decide

/-- V-EN9 and V-EN13: refused. -/
theorem test_RESERVED :
    refusal (exec (.ewReservedStart 1) devB) = some .reservedEventWord ∧
    refusal (exec .lcReserved1100 devB) = some .reservedLineCode := by decide

/-! ### Sequencer steps, variant A -/

/-- V-SQ1 and V-SQ2. -/
theorem test_SQ_POLL :
    after (exec .sqPoll { devA with rxq := List.replicate 8 0 }) = some { devA with rxq := List.replicate 8 0 } ∧
    after (exec .sqPoll { devA with rxq := List.replicate 9 0 }) =
      some { devA with rxq := List.replicate 9 0, seqState := .read 0 } := by decide

/-- V-SQ3. -/
theorem test_SQ_READ_first :
    after (exec (.sqRead 0) { devA with seqState := .read 0, rxq := [3, 0] }) =
      some { devA with seqState := .read 1, rxq := [0], req := #v[3, 0, 0, 0, 0, 0, 0, 0, 0] } := by decide

/-- V-SQ4 and V-SQ5. -/
theorem test_SQ_READ_last_and_empty :
    seen (fun t => (t.seqState, t.rxq)) (exec (.sqRead 8) { devA with seqState := .read 8, rxq := [7] }) =
      some (.compose, []) ∧
    after (exec (.sqRead 4) { devA with seqState := .read 4 }) = some { devA with seqState := .read 4 } := by decide

/-- V-SQ6. -/
theorem test_SQ_COMPOSE :
    after (exec .sqCompose { devA with seqState := .compose, req := #v[4, 0, 0, 0, 0, 0, 0, 0, 0] }) =
      some { devA with
        req := #v[4, 0, 0, 0, 0, 0, 0, 0, 0]
        rep := #v[0x3B, 0x59, 0xE8, 0x2A, 0xE9, 0xB1, 0xBE, 0xD8, 0, 0, 0, 0, 0x04, 0x00, 0x90]
        frameSeq := 1
        seqState := .write 0 } := by decide

/-- V-SQ8. -/
theorem test_SQ_WRITE_last :
    after (exec (.sqWrite 14)
      { devA with seqState := .write 14, rep := identifyReply, txq := List.replicate 14 1 }) =
    some { devA with seqState := .poll, rep := identifyReply, txq := List.replicate 14 1 ++ [0x4A] } := by decide

/-- V-SQ9. -/
theorem test_SQ_WRITE_full :
    after (exec (.sqWrite 3) { devA with seqState := .write 3, txq := List.replicate 16 0 }) =
      some { devA with seqState := .write 3, txq := List.replicate 16 0 } := by decide

/-! ### The byte engine -/

/-- 44_byte_engine.md R182 to R184. -/
theorem test_ADDRESS_CLASSES :
    after (exec .addrW { devB with be := .addr, bitcnt := 8, rw := true }) =
      some { devB with be := .addr, bitcnt := 8, matched := true, firstPending := true, sdaOut := false } ∧
    after (exec .addrR { devB with be := .addr, bitcnt := 8 }) =
      some { devB with be := .addr, bitcnt := 8, matched := true, rw := true, sdaOut := false } ∧
    after (exec (.addrOther 5 false) { devB with be := .addr, bitcnt := 8 }) =
      some { devB with be := .wait, bitcnt := 8 } := by decide

/-- V-BE1, through `SAMPLE`: the start condition is also `EV_START`. -/
theorem test_SAMPLE_start :
    after (exec (.sample true false) { awakeB with be := .tx, bitcnt := 3, txHead := 2 }) =
      some { awakeB with be := .addr, sdaQ := false, phase := .receiving } := by decide

/-- V-BE12: the sample after the end of a hold is taken with SCL still low, then lets it go. -/
theorem test_SAMPLE_releases_a_hold :
    after (exec (.sample true true)
      { awakeA with be := .tx, hold := .release, sclOut := false, sclQ := false, sr := 0x48, sdaOut := false,
                    sdaQ := false, expect := .kept true }) =
    some { awakeA with be := .tx, sclQ := false, sr := 0x48, sdaOut := false, sdaQ := false,
                       expect := .kept true } := by decide

/-- V-BE2. -/
theorem test_LC_STOP :
    after (exec .lcStop { devB with be := .rx, bitcnt := 1, sr := 0x4A, matched := true, rxHead := 1,
                                    phase := .receiving }) =
      some { devB with sr := 0x4A } := by decide

/-- V-BE1 in variant A: no event. -/
theorem test_LC_START_variant_A :
    after (exec .lcStart { devA with be := .wait, bitcnt := 8, matched := true }) =
      some { devA with be := .addr } := by decide

/-- V-BE5, the sixth bit: `14` becomes `29` (with a 1). -/
theorem test_LC_RISE_shifts :
    after (exec .lcRise0111 { devB with be := .rx, bitcnt := 5, sr := 0x14 }) =
      some { devB with be := .rx, bitcnt := 6, sr := 0x29 } ∧
    after (exec .lcRise0010 { devB with be := .rx, bitcnt := 6, sr := 0x29 }) =
      some { devB with be := .rx, bitcnt := 7, sr := 0x52 } := by decide

/-- V-BE10. -/
theorem test_LC_RISE_takes_the_nack :
    after (exec .lcRise0111 { devB with be := .tx, bitcnt := 8 }) =
      some { devB with be := .tx, bitcnt := 9, nack := true } := by decide

/-- V-BE4. -/
theorem test_LC_FALL_other_address :
    after (exec .lcFall1000 { devB with be := .addr, bitcnt := 8, sr := 0x0A }) =
      some { devB with be := .wait, bitcnt := 8, sr := 0x0A } := by decide

/-- V-BE8, the fetch: `48` is asked for and its bit 7 driven. -/
theorem test_LC_FALL_fetches :
    after (exec .lcFall1000 { devB with be := .addr, bitcnt := 9, rw := true, rep := identifyReply,
                                        sdaOut := false, phase := .receiving }) =
      some { devB with be := .tx, rw := true, rep := identifyReply, sr := 0x48, sdaOut := false, txHead := 1,
                       phase := .replying } := by decide

/-- V-BE5, the delivery, variant B. -/
theorem test_LC_FALL_delivers :
    after (exec .lcFall1101 { devB with be := .rx, bitcnt := 8, sr := 0xA5, firstPending := true }) =
      some { devB with be := .rx, bitcnt := 8, sr := 0xA5, sdaOut := false, rxHead := 1, phase := .receiving,
                       req := #v[0xA5, 0, 0, 0, 0, 0, 0, 0, 0] } := by decide

/-- V-BE11. -/
theorem test_LC_FALL_holds_on_empty_txq :
    after (exec .lcFall1000 { devA with be := .addr, bitcnt := 9, rw := true, sdaOut := false }) =
      some { devA with be := .tx, rw := true, hold := .txqEmpty, sclOut := false } := by decide

/-- V-BE12. -/
theorem test_BE_RESUME_sends :
    after (exec .beResume { devA with be := .tx, hold := .txqEmpty, sclOut := false, txq := [0x48, 0x61] }) =
      some { devA with be := .tx, hold := .release, sclOut := false, txq := [0x61], sr := 0x48,
                       sdaOut := false } := by decide

/-- V-BE13. -/
theorem test_BE_RESUME_accepts :
    after (exec .beResume { devA with be := .rx, bitcnt := 8, sr := 7, hold := .rxqFull, sclOut := false,
                                      rxq := List.replicate 15 0 }) =
      some { devA with be := .rx, bitcnt := 8, sr := 7, hold := .release, sclOut := false, sdaOut := false,
                       rxq := List.replicate 15 0 ++ [7] } := by decide

/-- V-BE14: both lines change. -/
theorem test_SAMPLE_refuses_two_edges :
    refusal (exec (.sample false false) devB) = some .reservedLineCode := by decide

/-- 70_reset_and_hazards.md R238: the first sample after reset is of an idle bus, and a start may follow it. -/
theorem test_SAMPLE_first_after_reset :
    refusal (exec (.sample true false) devB) = some .busNotIdleAfterReset ∧
    after (exec (.sample true true) devB) = some awakeB ∧
    seen State.be (exec (.sample true false) awakeB) = some .addr := by decide

/-- 44_byte_engine.md R200: W2 after a falling edge, W5 in a hold, W4 in an acknowledge clock and at the end of a
data clock of a byte that is read. -/
theorem test_SAMPLE_line_rules :
    refusal (exec (.sample true true) { awakeB with sclQ := false, expect := .sclLow }) = some .sclNotKeptLow ∧
    refusal (exec (.sample false true)
      { awakeA with be := .tx, hold := .txqEmpty, sclOut := false, sclQ := false, expect := .kept true }) =
      some .holdNotHonoured ∧
    refusal (exec (.sample true false)
      { awakeB with be := .rx, bitcnt := 8, sdaOut := false, sclQ := false, sdaQ := false }) =
      some .sdaNotReleased ∧
    refusal (exec (.sample false false) { awakeB with be := .tx, bitcnt := 8, sdaQ := false }) =
      some .sdaNotReleased := by decide

/-- 70_reset_and_hazards.md R254: where the device drives a 1, the controller can still prepare and make a stop. -/
theorem test_SAMPLE_stop_while_sending :
    seen State.bitcnt (exec (.sample true false) { awakeB with be := .tx, sclQ := false, sdaQ := false }) = some 1 ∧
    seen State.be (exec (.sample true true) { awakeB with be := .tx, bitcnt := 1, sdaQ := false }) =
      some .idle := by decide

/-- V-BE15: SDA changes while SCL is low. -/
theorem test_LC_NOP :
    after (exec .lcNop0001 devB) = some devB ∧
    after (exec (.sample false true) { awakeB with sclQ := false, sdaQ := false }) =
      some { awakeB with sclQ := false } := by decide

/-! ### Witnesses: the hypotheses of each statement, met together, at the ends of their ranges -/

theorem witness_DecodeOfEncodeIsTheOperation :
    (Instr.addrOther 5 false).wellFormed = true ∧ (Instr.ewReservedReq 1).wellFormed = true := by decide

theorem witness_EncodeOfDecodeIsThePacket :
    decode ⟨.sq, [0x3E]⟩ = .ok (.sqWrite 14) ∧ decode ⟨.rq0, [0x83]⟩ = .ok (.modeFallback 0x83) := by decide

theorem witness_AddressAndModeBytesSelectTheirRow :
    ((0x0A : Byte) ≠ 0x08 ∧ (0x0A : Byte) ≠ 0x09) ∧
    ((2 : Byte) ≠ 1 ∧ (2 : Byte) ≠ 3 ∧ (2 : Byte) ≠ 4 ∧ (2 : Byte) ≠ 5) := by decide

/-- Both ends of each reserved range; the codes between the ranges are operations. -/
theorem witness_SequencerCodesDecode :
    (∀ c ∈ [0x01, 0x0F, 0x19, 0x1F, 0x21, 0x2F, 0x3F], decodeSQ c = none) ∧
    (∀ c ∈ [0x00, 0x10, 0x18, 0x20, 0x30, 0x3E], decodeSQ c ≠ none) := by decide

/-- `devB` with one input: `EV_BYTE_RX(03, 1)`. -/
def devBFed : State := { devB with input := [⟨.ew, [0x03, 0x05]⟩] }

theorem witness_StepRunsTheDecodedOperation :
    devBFed.input = ⟨.ew, [0x03, 0x05]⟩ :: [] ∧ decode ⟨.ew, [0x03, 0x05]⟩ = .ok (.evByteRx 3 true) ∧
    (Instr.evByteRx 3 true).wellFormed = true := by decide

theorem witness_StepRestsRefusesOrRunsThePlacedWord :
    devB.input = [] ∧
    ({ devB with input := [⟨.sq, [0x19]⟩] } : State).input = ⟨.sq, [0x19]⟩ :: [] ∧
    decode ⟨.sq, [0x19]⟩ = .error .reservedSequencerCode ∧
    decodeTableWord 16 0x503 = some (.evByteRx 3 true) := by decide

theorem witness_ChecksumSeesEverySingleByte :
    (0x03 : Byte) ≠ 0x04 ∧ passesCheck identifyReply = true ∧
    (0xFF : Byte) ≠ identifyReply[(0 : Fin 14).val] ∧ (0xFF : Byte) ≠ identifyReply[(13 : Fin 14).val] := by decide

theorem witness_StartAndStopResetEngineAndCursors :
    devB.cfg.variant = .bEvent ∧ devA.cfg.variant = .aPolled := by decide

/-- The first and the last byte that is stored without composing, and a `first` byte at a high cursor. -/
theorem witness_ReceivedByteIsStoredAtTheCursor :
    devB.cfg.variant = .bEvent ∧ devB.rxHead = BitVec.ofNat 4 (0 : Fin 8).val ∧
    ({ devB with rxHead := 7 } : State).rxHead = BitVec.ofNat 4 (7 : Fin 8).val ∧
    seen State.rxHead (exec (.evByteRx 4 true) { devB with rxHead := 9 }) = some 1 := by decide

theorem witness_NinthByteComposes :
    ({ devB with rxHead := 8 } : State).cfg.variant = .bEvent ∧ ({ devB with rxHead := 8 } : State).rxHead = 8 := by
  decide

theorem witness_TenthByteIsRequestOverflow :
    ({ devB with rxHead := 9 } : State).cfg.variant = .bEvent ∧ ({ devB with rxHead := 9 } : State).rxHead = 9 := by
  decide

theorem witness_RequestedBytesAreTheReplyInOrder :
    devB.cfg.variant = .bEvent ∧ devB.txHead = BitVec.ofNat 4 (0 : Fin 15).val ∧
    ({ devB with txHead := 14 } : State).txHead = BitVec.ofNat 4 (14 : Fin 15).val := by decide

theorem witness_SixteenthRequestIsReplyOverflow :
    ({ devB with txHead := 15 } : State).cfg.variant = .bEvent ∧ ({ devB with txHead := 15 } : State).txHead = 15 := by
  decide

/-- A request script after one that was aborted (PRG-2). -/
theorem witness_RequestScriptComposesOneReply :
    ({ devB with rxHead := 5, phase := .receiving } : State).cfg.variant = .bEvent := by decide

theorem witness_TheOtherVariantsOperationsAreRefused :
    devA.cfg.variant = .aPolled ∧ devB.cfg.variant = .bEvent := by decide

/-- At the threshold, one below it, and in another state. -/
theorem witness_PollLeavesWhenEnoughBytes :
    devA.cfg.variant = .aPolled ∧ devA.seqState = .poll ∧
    ({ devA with rxq := List.replicate 9 0 } : State).cfg.pollThreshold ≤ (List.replicate 9 (0 : Byte)).length ∧
    ({ devA with rxq := List.replicate 8 0 } : State).rxq.length < devA.cfg.pollThreshold ∧
    ({ devA with seqState := .write 14 } : State).seqState ≠ .poll := by decide

/-- The first read and the last, an empty queue, and another state. -/
theorem witness_ReadPopsIntoTheRequest :
    devA.cfg.variant = .aPolled ∧
    (({ devA with seqState := .read 0, rxq := [3, 0] } : State).seqState = .read 0 ∧
      ({ devA with seqState := .read 0, rxq := [3, 0] } : State).rxq = 3 :: [0]) ∧
    (({ devA with seqState := .read 8, rxq := [7] } : State).seqState = .read 8 ∧
      ({ devA with seqState := .read 8, rxq := [7] } : State).rxq = 7 :: []) ∧
    devA.rxq = [] ∧ devA.seqState ≠ .read 0 := by decide

theorem witness_SequencerComposes :
    devA.cfg.variant = .aPolled ∧ ({ devA with seqState := .compose } : State).seqState = .compose ∧
    devA.seqState ≠ .compose := by decide

/-- The first write and the last, a queue one below its depth, a full queue, and another state. -/
theorem witness_WritePushesTheReply :
    devA.cfg.variant = .aPolled ∧
    (({ devA with seqState := .write 0 } : State).seqState = .write 0 ∧ devA.txq.length < devA.cfg.txqDepth) ∧
    (({ devA with seqState := .write 14 } : State).seqState = .write 14 ∧
      ({ devA with txq := List.replicate 15 0 } : State).txq.length < devA.cfg.txqDepth) ∧
    devA.cfg.txqDepth ≤ ({ devA with txq := List.replicate 16 0 } : State).txq.length ∧
    devA.seqState ≠ .write 0 := by decide

/-- A device of variant A that has received an Identify request. -/
def devAAsked : State := { devA with rxq := [3, 0, 0, 0, 0, 0, 0, 0, 0] }

theorem witness_TheTwoVariantsSendTheSameBytes :
    devAAsked.cfg.variant = .aPolled ∧ devB.cfg.variant = .bEvent ∧ devAAsked.frameSeq = devB.frameSeq ∧
    devAAsked.cfg.Wf ∧ 15 ≤ devAAsked.cfg.txqDepth ∧ devAAsked.seqState = .poll ∧
    devAAsked.rxq = (#v[3, 0, 0, 0, 0, 0, 0, 0, 0] : RequestFrame).toList ∧ devAAsked.txq = [] := by decide

/-- The engine in state `be` with `k` bits clocked and byte `sr`. -/
def engineAt (d : State) (be : EngineState) (k : BitVec 4) (sr : Byte) : State :=
  { d with be := be, bitcnt := k, sr := sr }

theorem witness_AddressByteDecidesTheEngine :
    devB.sdaOut = true ∧
    ((engineAt devB .addr 8 0x08).be = .addr ∧ (engineAt devB .addr 8 0x08).bitcnt = 8 ∧
      (engineAt devB .addr 8 0x08).sr = 0x08) ∧
    (engineAt devB .addr 8 0x09).sr = 0x09 ∧
    ((engineAt devB .addr 8 0x0A).sr ≠ 0x08 ∧ (engineAt devB .addr 8 0x0A).sr ≠ 0x09 ∧
      (engineAt devB .addr 8 0x0A).sdaOut = true) := by decide

theorem witness_CodesWithNothingToDoChangeNothing :
    devB.be = .idle ∧ (engineAt devB .wait 8 0).be = .wait ∧
    ((engineAt devB .addr 0 0).be = .addr ∧ (engineAt devB .addr 0 0).bitcnt ≤ 7) ∧
    ((engineAt devB .rx 7 0).be = .rx ∧ (engineAt devB .rx 7 0).bitcnt ≤ 7) ∧
    ((engineAt devB .tx 0 0).be = .tx ∧ (engineAt devB .tx 0 0).bitcnt = 0) := by decide

/-- The two bits, and each clause at the first and last count that meets it. -/
theorem witness_RisingEdgeSamplesABit :
    ((engineAt devB .addr 0 0).be = .addr ∧ (engineAt devB .addr 0 0).bitcnt ≤ 7) ∧
    ((engineAt devB .rx 7 0).be = .rx ∧ (engineAt devB .rx 7 0).bitcnt ≤ 7) ∧
    ((engineAt devB .rx 8 0).be = .rx ∧ (engineAt devB .rx 8 0).bitcnt = 8) ∧
    ((engineAt devB .tx 7 0).be = .tx ∧ (engineAt devB .tx 7 0).bitcnt ≤ 7) ∧
    ((engineAt devB .tx 8 0).be = .tx ∧ (engineAt devB .tx 8 0).bitcnt = 8) ∧
    (engineAt devB .wait 8 0).be = .wait := by decide

theorem witness_AddressAckLeadsToDataOrFetch :
    ((engineAt devB .addr 9 8).be = .addr ∧ (engineAt devB .addr 9 8).bitcnt = 9) ∧ devB.rw = false ∧
    (({ devB with rw := true } : State).rw = true ∧ devB.cfg.variant = .bEvent) ∧
    (({ devA with rw := true, txq := [0x48] } : State).rw = true ∧ devA.cfg.variant = .aPolled ∧
      ({ devA with rw := true, txq := [0x48] } : State).txq = 0x48 :: []) ∧
    devA.txq = [] := by decide

/-- Room for one byte, and no room; the highest and the lowest cursor. -/
theorem witness_FallingEdgeDeliversTheByte :
    ((engineAt devB .rx 8 5).be = .rx ∧ (engineAt devB .rx 8 5).bitcnt = 8 ∧ devB.cfg.variant = .bEvent ∧
      devB.rxHead ≤ 9 ∧ ({ devB with rxHead := 9 } : State).rxHead ≤ 9) ∧
    (devA.cfg.variant = .aPolled ∧
      ({ devA with rxq := List.replicate 15 0 } : State).rxq.length < devA.cfg.rxqDepth) ∧
    devA.cfg.rxqDepth ≤ ({ devA with rxq := List.replicate 16 0 } : State).rxq.length ∧
    (engineAt devB .rx 9 5).bitcnt = 9 := by decide

theorem witness_FallingEdgeSendsTheByte :
    ((engineAt devB .tx 1 5).be = .tx ∧ (engineAt devB .tx 1 5).bitcnt = BitVec.ofNat 4 1) ∧
    (engineAt devB .tx 7 5).bitcnt = BitVec.ofNat 4 7 ∧ (engineAt devB .tx 8 5).bitcnt = 8 ∧
    ((engineAt devB .tx 9 5).bitcnt = 9 ∧ ({ devB with nack := true } : State).nack = true) ∧
    (devB.nack = false ∧ devB.cfg.variant = .bEvent) ∧
    (devA.nack = false ∧ devA.cfg.variant = .aPolled ∧ ({ devA with txq := [1] } : State).txq = 1 :: []) := by decide

/-- One line changes, and both do; the highest cursor. -/
theorem witness_SampleRunsItsLineCode :
    ({ awakeB with rxHead := 9 } : State).rxHead ≤ 9 ∧ SampleSound true false { awakeB with rxHead := 9 } ∧
    ¬ SampleSound true true { awakeB with sclQ := false, expect := .sclLow } ∧
    ((false && awakeB.sclOut) ≠ awakeB.sclQ ∧ (false && awakeB.sdaOut) ≠ awakeB.sdaQ) :=
  ⟨by decide, ⟨by decide, by decide, by decide, by decide, by decide, by decide⟩,
    fun h => absurd (h.2.2.1 rfl) (by decide), by decide⟩

theorem witness_ResumeEndsAHold :
    devA.cfg.variant = .aPolled ∧
    (({ devA with hold := .rxqFull, rxq := List.replicate 15 0 } : State).hold = .rxqFull ∧
      ({ devA with rxq := List.replicate 15 0 } : State).rxq.length < devA.cfg.rxqDepth) ∧
    (({ devA with hold := .txqEmpty, txq := [7] } : State).hold = .txqEmpty ∧
      ({ devA with txq := [7] } : State).txq = 7 :: []) ∧
    (¬ (devA.hold = .rxqFull ∧ devA.rxq.length < devA.cfg.rxqDepth) ∧
      ¬ (devA.hold = .txqEmpty ∧ devA.txq ≠ [])) := by decide

/-- The engine while it acknowledges a write address: SCL low, `bitcnt` 8. -/
def acking : State :=
  { awakeB with be := .addr, bitcnt := 8, sr := 0x08, matched := true, firstPending := true, sdaOut := false,
                sclQ := false, sdaQ := false, phase := .receiving }

/-- The engine with SDA released, waiting for the next start. -/
def silent : State := { awakeB with be := .wait, bitcnt := 8 }

/-- The engine of variant A in a hold. -/
def holding : State :=
  { awakeA with be := .tx, matched := true, rw := true, hold := .txqEmpty, sclOut := false, sclQ := false,
                sdaQ := false }

theorem acking_engineInv : acking.EngineInv :=
  ⟨⟨⟨by decide, by decide, by decide, by decide, by decide⟩, by decide, by decide, by decide⟩, by decide⟩

theorem silent_engineInv : silent.EngineInv :=
  ⟨⟨⟨by decide, by decide, by decide, by decide, by decide⟩, by decide, by decide, by decide⟩, by decide⟩

theorem holding_engineInv : holding.EngineInv :=
  ⟨⟨⟨by decide, by decide, by decide, by decide, by decide⟩, by decide, by decide, by decide⟩, by decide⟩

/-- A falling edge, a sample in a hold with SCL let go, an acknowledge, and a 1 being sent. -/
theorem witness_InputOutsideTheLineRulesIsRefused :
    (awakeB.EngineInv ∧ seen State.sclQ (exec (.sample false true) awakeB) = some false) ∧
    (holding.EngineInv ∧ seen State.sclQ (exec (.sample true true) holding) = some false) ∧
    (acking.sclOut = true ∧ acking.sdaOut = false) ∧
    (∀ k ∈ [1, 8], (engineAt awakeB .tx k 0xFF).be = .tx ∧ 1 ≤ (engineAt awakeB .tx k 0xFF).bitcnt ∧
      (engineAt awakeB .tx k 0xFF).bitcnt ≤ 8 ∧ (engineAt awakeB .tx k 0xFF).sclQ = true ∧
      (engineAt awakeB .tx k 0xFF).sdaOut = true) :=
  ⟨⟨⟨⟨⟨by decide, by decide, by decide, by decide, by decide⟩, by decide, by decide, by decide⟩, by decide⟩,
    by decide⟩, ⟨holding_engineInv, by decide⟩, by decide, by decide⟩

theorem acking_inv : acking.Inv := by decide

theorem witness_NoConditionWhileSdaIsHeld : acking.EngineInv ∧ acking.sdaOut = false :=
  ⟨acking_engineInv, by decide⟩

theorem witness_EngineInvariantBoundsTheOutputs :
    (acking.EngineInv ∧ acking.sdaOut = false ∧ acking.firstPending = true) ∧
    (silent.EngineInv ∧ silent.be = .wait) ∧ (holding.EngineInv ∧ holding.hold ≠ .none) ∧
    (onlyInsideSample (.sample true true) = false ∧ acking.Inv ∧
      after (exec (.sample true true) acking) ≠ none) :=
  ⟨⟨acking_engineInv, by decide, by decide⟩, ⟨silent_engineInv, by decide⟩, ⟨holding_engineInv, by decide⟩,
    by decide, acking_inv, by decide⟩

/-- The decision for the address byte 08, by a line code and by a sample. -/
theorem witness_FirstPendingComesFromTheWriteAddress :
    (engineAt awakeB .addr 8 0x08).firstPending = false ∧
    seen State.firstPending (exec .lcFall1000 (engineAt awakeB .addr 8 0x08)) = some true ∧
    seen State.firstPending (exec (.sample false true) (engineAt awakeB .addr 8 0x08)) = some true := by decide

theorem witness_ResetAwaitsAnIdleBus :
    (∀ p ∈ [(false, true), (true, false), (false, false)], (p.1 = false ∨ p.2 = false) ∧
      (refusal (exec (.sample p.1 p.2) devB)).isSome = true) := by decide

/-- The engine of a device that receives, SCL low, with nothing clocked yet. -/
def receivingAt (d : State) : State :=
  { d with be := .rx, sclQ := false, matched := true, firstPending := true, expect := .sclLow }

theorem witness_ByteClockedInIsOneEvent :
    (receivingAt devB).cfg.variant = .bEvent ∧ (receivingAt devB).be = .rx ∧ (receivingAt devB).bitcnt = 0 ∧
    (receivingAt devB).sclQ = false ∧ (receivingAt devB).sdaOut = true ∧ (receivingAt devB).sclOut = true ∧
    (receivingAt devB).hold = .none ∧
    ((receivingAt devB).expect = .sclLow ∨ (receivingAt devB).expect = .anything) ∧
    after (exec (.evByteRx 0xA5 (receivingAt devB).firstPending) (receivingAt devB)) ≠ none := by decide

theorem witness_ByteClockedInIsOnePush :
    (receivingAt devA).cfg.variant = .aPolled ∧ (receivingAt devA).be = .rx ∧ (receivingAt devA).bitcnt = 0 ∧
    (receivingAt devA).sclQ = false ∧ (receivingAt devA).sdaOut = true ∧ (receivingAt devA).sclOut = true ∧
    (receivingAt devA).hold = .none ∧
    ((receivingAt devA).expect = .sclLow ∨ (receivingAt devA).expect = .anything) ∧
    (receivingAt devA).rxq.length < (receivingAt devA).cfg.rxqDepth := by decide

/-- The engine with `48` loaded, SCL low. -/
def sending : State :=
  { awakeB with be := .tx, sr := 0x48, sdaOut := false, sclQ := false, matched := true, rw := true }

theorem witness_ByteClockedOutIsTheByte :
    sending.be = .tx ∧ sending.bitcnt = 0 ∧ sending.sclQ = false ∧ sending.sdaOut = sending.sr.getLsbD 7 ∧
    sending.sclOut = true ∧ sending.hold = .none ∧ (sending.expect = .sclLow ∨ sending.expect = .anything) := by
  decide

/-- `acking` with its next sample in the input. -/
def ackingFed : State := { acking with input := [⟨.fn, [5, 0b11]⟩] }

theorem witness_EveryStepKeepsTheInvariant : ackingFed.Inv ∧ after (step ackingFed) ≠ none := by decide

theorem witness_EveryOwnStepKeepsTheEngineInvariant :
    onlyInsideSample (.sample true true) = false ∧ acking.Inv ∧ acking.EngineInv ∧
    after (exec (.sample true true) acking) ≠ none :=
  ⟨by decide, acking_inv, acking_engineInv, by decide⟩

theorem witness_NoStepFaults : ackingFed.Inv := by decide

/-- Each guard: a sample of one edge, an event in variant B, a sequencer step in variant A. -/
theorem witness_EveryOtherOperationCompletes :
    ({ awakeB with rxHead := 9 } : State).rxHead ≤ 9 ∧ SampleSound true false { awakeB with rxHead := 9 } ∧
    devB.cfg.variant = .bEvent ∧ devA.cfg.variant = .aPolled ∧ Instr.lcStart ≠ .lcReserved0011 :=
  ⟨by decide, ⟨by decide, by decide, by decide, by decide, by decide, by decide⟩, by decide, by decide, by decide⟩

theorem witness_NoOperationChangesTheParameters : after (exec .lcStart devB) ≠ none := by decide

/-- An operation that is not `RESET`, on a state with both flags set. -/
theorem witness_ReportsAreStickyAndSingle :
    Instr.evStart ≠ .reset ∧ ({ devB with rxOvf := true, txOvf := true } : State).rxOvf = true ∧
    ({ devB with rxOvf := true, txOvf := true } : State).txOvf = true ∧
    after (exec .evStart { devB with rxOvf := true, txOvf := true }) ≠ none := by decide

theorem witness_ReplyAndCounterChangeTogether :
    Instr.compose ≠ .reset ∧ after (exec .compose devB) ≠ none := by decide

theorem witness_MemoryWriteChangesOneByte :
    (memWrite .req 8 7 devB).isOk = true ∧ (memWrite .rep 14 7 devB).isOk = true ∧
    (memWrite .req 9 7 devB).isOk = false ∧ (memWrite .rom 0 7 devB).isOk = false := by decide

end Sys2Proof.Tests
end

section
/-! One step by its input (log 5), and the state a placed table word gives (log 8). -/

namespace Sys2Proof.Machine

theorem step_of_input_nil {s : State} (h : s.input = []) : step s = .next s := by
  simp only [step, fetch, h]

theorem step_of_decode_ok {s : State} {p : Packet} {rest : List Packet} {i : Instr}
    (hin : s.input = p :: rest) (hd : decode p = .ok i) : step s = exec i { s with input := rest } := by
  simp only [step, fetch, hin, hd]

theorem step_of_decode_error {s : State} {p : Packet} {rest : List Packet} {e : DecodeError}
    (hin : s.input = p :: rest) (hd : decode p = .error e) : step s = .refused (.undecodable e) := by
  simp only [step, fetch, hin, hd]

/-- A table word decodes to what the decoder reads from its packet. -/
theorem decodeTableWord_eq_some_iff {nbits w : Nat} {i : Instr} :
    decodeTableWord nbits w = some i ↔ decode (packetOfTableWord nbits w) = .ok i := by
  unfold decodeTableWord
  cases decode (packetOfTableWord nbits w) with
  | ok j => simp
  | error e => simp

/-- A word that decodes is placed before the inputs of the state with its needs selected (log 8). -/
theorem withFetchWord_of_decode {nbits w : Nat} {i : Instr} (h : decodeTableWord nbits w = some i) (s : State) :
    s.withFetchWord nbits w =
      { selectFor i s with input := packetOfTableWord nbits w :: (selectFor i s).input } := by
  simp only [State.withFetchWord, placeTableWord, h]

/-- The step takes the placed packet off again, so the selected state is what the operation runs on. -/
theorem step_withFetchWord {nbits w : Nat} {i : Instr} (h : decodeTableWord nbits w = some i) (s : State) :
    step (s.withFetchWord nbits w) = exec i (selectFor i s) := by
  rw [withFetchWord_of_decode h]
  exact step_of_decode_ok rfl (decodeTableWord_eq_some_iff.mp h)

/-- Settles O8: each clause is the equation of the step for that input. -/
theorem stepRestsRefusesOrRunsThePlacedWord : Obligations.StepRestsRefusesOrRunsThePlacedWord :=
  ⟨fun _ hin => step_of_input_nil hin,
   fun _ _ _ _ hin hd => step_of_decode_error hin hd,
   fun s _ _ _ h => step_withFetchWord h s⟩

end Sys2Proof.Machine
end

section
/-! What an operation that completes did: the inversion of `exec`, one constructor per kind of operation. -/

namespace Sys2Proof.Machine

/-- The arms of a falling edge of SCL (44_byte_engine.md R180): nothing, the address decision, the two ends of an
acknowledge, a delivery, and the arms of sending. -/
inductive FallEffect (s : State) : State → Prop
  | nothing : FallEffect s s
  | decided (hb : s.be = .addr) (h8 : s.bitcnt = 8) : FallEffect s (addressDecision s)
  | addressAckEnded : FallEffect s (endAddressAck s)
  | delivered {t : State} (h : deliver s = .ok t) : FallEffect s t
  | dataAckEnded : FallEffect s (endDataAck s)
  | bitDriven : FallEffect s (driveNextBit s)
  | releasedForAck : FallEffect s (releaseForAck s)
  | acknowledged : FallEffect s (afterControllerAck s)

/-- The inversion of `lcFall`. -/
theorem fallEffect_of_lcFall {s t : State} (h : lcFall s = .ok t) : FallEffect s t := by
  unfold lcFall at h
  cases hb : s.be with
  | idle | wait => simp only [hb] at h; cases h; exact .nothing
  | addr =>
    simp only [hb] at h
    split_ifs at h with h8 <;> cases h
    exacts [.decided hb h8, .addressAckEnded, .nothing]
  | rx =>
    simp only [hb] at h
    split_ifs at h
    · exact .delivered h
    · cases h; exact .dataAckEnded
    · cases h; exact .nothing
  | tx =>
    simp only [hb] at h
    split_ifs at h <;> cases h
    exacts [.bitDriven, .releasedForAck, .acknowledged, .nothing]

/-- What the row of a line code does: a NOP, an edge of SCL, a start or a stop (44_byte_engine.md R172 step 5). -/
inductive LineEffect (s : State) : Instr → State → Prop
  | nop (i : Instr) : LineEffect s i s
  | rise (i : Instr) (sda : Bool) : LineEffect s i (lcRise sda s)
  | fall {i : Instr} {t : State} (hi : i = .lcFall1000 ∨ i = .lcFall1101) (h : FallEffect s t) :
      LineEffect s i t
  | start : LineEffect s .lcStart (lcStart s)
  | stop : LineEffect s .lcStop (lcStop s)

/-- What an operation that completes did to the state, with the variant it needs (10_state.md R40). -/
inductive Effect (s : State) : Instr → State → Prop
  | addrW : Effect s .addrW (addrW s)
  | addrR : Effect s .addrR (addrR s)
  | addrOther (addr : BitVec 7) (rw : Bool) : Effect s (.addrOther addr rw) (addrOther s)
  | returned (i : Instr) (r : Returned) : Effect s i { s with ret := r }
  | stamped {i : Instr} (codec : (∃ p e, i = .buildReply p e) ∨ ∃ f, i = .seqStamp f) (r : Returned) :
      Effect s i { s with frameSeq := s.frameSeq + 1, ret := r }
  | composed : Effect s .compose (compose s)
  | evStart (hv : s.cfg.variant = .bEvent) : Effect s .evStart (evStart s)
  | evStop (hv : s.cfg.variant = .bEvent) : Effect s .evStop (evStop s)
  | evByteRx {d : Byte} {first : Bool} {t : State} (hv : s.cfg.variant = .bEvent)
      (h : evByteRx d first s = .ok t) : Effect s (.evByteRx d first) t
  | evByteReq (hv : s.cfg.variant = .bEvent) (r : Returned) :
      Effect s .evByteReq { (evByteReq s).2 with ret := r }
  | line {i : Instr} {t : State} (h : LineEffect s i t) : Effect s i t
  | sample {sclC sdaC : Bool} {i : Instr} {t : State} (h : LineEffect (sampled sclC sdaC s) i t) :
      Effect s (.sample sclC sdaC) t
  | sqPoll (hv : s.cfg.variant = .aPolled) : Effect s .sqPoll (sqPoll s)
  | sqRead (hv : s.cfg.variant = .aPolled) (k : Fin 9) : Effect s (.sqRead k) (sqRead k s)
  | sqCompose (hv : s.cfg.variant = .aPolled) : Effect s .sqCompose (sqCompose s)
  | sqWrite (hv : s.cfg.variant = .aPolled) (k : Fin 15) : Effect s (.sqWrite k) (sqWrite k s)
  | beResume (hv : s.cfg.variant = .aPolled) : Effect s .beResume (beResume s)
  | reset : Effect s .reset (resetState s)

/-- A sample that completes did what the row of its line code does, on the remembered lines. -/
theorem lineEffect_of_exec_sample {sclC sdaC : Bool} {s t : State} (h : exec (.sample sclC sdaC) s = .next t) :
    ∃ i, LineEffect (sampled sclC sdaC s) i t := by
  rcases exec_sample_cases (sound_of_exec_sample h) with
    ⟨_, _, e⟩ | ⟨_, _, _, e⟩ | ⟨_, _, _, e⟩ | ⟨_, _, _, _, e⟩ | ⟨_, _, _, _, e⟩ <;> rw [e] at h
  · cases h; exact ⟨.lcNop0000, .nop _⟩
  · cases h; exact ⟨.lcRise0010, .rise _ _⟩
  · exact ⟨.lcFall1000, .fall (.inl rfl) (fallEffect_of_lcFall (answer_next h))⟩
  · cases h; exact ⟨.lcStart, .start⟩
  · cases h; exact ⟨.lcStop, .stop⟩

/-- The inversion of `exec`: an operation that completes has its row's effect. -/
theorem effect_of_exec {i : Instr} {s t : State} (h : exec i s = .next t) : Effect s i t := by
  cases i with
  | addrW => cases h; exact .addrW
  | addrR => cases h; exact .addrR
  | addrOther addr rw => cases h; exact .addrOther addr rw
  | modeNormal | modeIdentify | modeChallenge | modeSerial | modeFallback | lookup | checksum =>
    cases h; exact .returned _ _
  | buildReply => cases h; exact .stamped (.inl ⟨_, _, rfl⟩) _
  | seqStamp => cases h; exact .stamped (.inr ⟨_, rfl⟩) _
  | compose => cases h; exact .composed
  | evStart => obtain ⟨hv, ⟨⟩⟩ := onlyInB_next (op := fun u => .ok (evStart u)) h; exact .evStart hv
  | evStop => obtain ⟨hv, ⟨⟩⟩ := onlyInB_next (op := fun u => .ok (evStop u)) h; exact .evStop hv
  | evByteRx => obtain ⟨hv, e⟩ := onlyInB_next h; exact .evByteRx hv e
  | evByteReq =>
    obtain ⟨hv, ⟨⟩⟩ :=
      onlyInB_next (op := fun u => .ok { (evByteReq u).2 with ret := .byte (evByteReq u).1 }) h
    exact .evByteReq hv _
  | ewReservedStart | ewReservedStop | ewReservedReq => cases h
  | lcReserved0011 | lcReserved0110 | lcReserved1001 | lcReserved1100 => cases h
  | lcNop0000 | lcNop0001 | lcNop0100 | lcNop0101 | lcNop1010 | lcNop1111 => cases h; exact .line (.nop _)
  | lcRise0010 | lcRise0111 => cases h; exact .line (.rise _ _)
  | lcFall1000 => exact .line (.fall (.inl rfl) (fallEffect_of_lcFall (answer_next h)))
  | lcFall1101 => exact .line (.fall (.inr rfl) (fallEffect_of_lcFall (answer_next h)))
  | lcStart => cases h; exact .line .start
  | lcStop => cases h; exact .line .stop
  | sample => obtain ⟨_, e⟩ := lineEffect_of_exec_sample h; exact .sample e
  | sqPoll => obtain ⟨hv, rfl⟩ := onlyInA_next h; exact .sqPoll hv
  | sqRead k => obtain ⟨hv, rfl⟩ := onlyInA_next h; exact .sqRead hv k
  | sqCompose => obtain ⟨hv, rfl⟩ := onlyInA_next h; exact .sqCompose hv
  | sqWrite k => obtain ⟨hv, rfl⟩ := onlyInA_next h; exact .sqWrite hv k
  | beResume => obtain ⟨hv, rfl⟩ := onlyInA_next h; exact .beResume hv
  | reset => cases h; exact .reset

/-- The arms of `FETCH` (44_byte_engine.md R190). -/
theorem fetchToSend_cases (s : State) :
    (s.cfg.variant = .bEvent ∧ fetchToSend s = load (evByteReq s).1 (evByteReq s).2) ∨
    (s.cfg.variant = .aPolled ∧ ∃ d rest, s.txq = d :: rest ∧ fetchToSend s = load d { s with txq := rest }) ∨
    (s.cfg.variant = .aPolled ∧ fetchToSend s = holdTxqEmpty s) := by
  unfold fetchToSend
  cases hv : s.cfg.variant with
  | bEvent => exact .inl ⟨rfl, rfl⟩
  | aPolled =>
    cases hq : s.txq with
    | nil => exact .inr (.inr ⟨rfl, rfl⟩)
    | cons d rest => exact .inr (.inl ⟨rfl, d, rest, rfl, rfl⟩)

/-- The two ways out of the address acknowledge (44_byte_engine.md R185). -/
theorem endAddressAck_cases (s : State) :
    endAddressAck s = fetchToSend { s with be := .tx, sdaOut := true, bitcnt := 0 } ∨
    endAddressAck s = { s with be := .rx, sdaOut := true, bitcnt := 0 } := by
  unfold endAddressAck
  split
  · exact .inl rfl
  · exact .inr rfl

/-- The two ways out of the controller's acknowledge (44_byte_engine.md R193). -/
theorem afterControllerAck_cases (s : State) :
    afterControllerAck s = { s with be := .wait, sdaOut := true, bitcnt := 0 } ∨
    afterControllerAck s = fetchToSend s := by
  unfold afterControllerAck
  split
  · exact .inl rfl
  · exact .inr rfl

/-- The arms of a delivery that completes (44_byte_engine.md R186, R187). -/
theorem deliver_cases {s t : State} (h : deliver s = .ok t) :
    (s.cfg.variant = .bEvent ∧ ∃ u, evByteRx s.sr s.firstPending s = .ok u ∧
      t = { u with firstPending := false, sdaOut := false }) ∨
    (s.cfg.variant = .aPolled ∧ s.rxq.length < s.cfg.rxqDepth ∧ t = acceptByte s) ∨
    (s.cfg.variant = .aPolled ∧ t = holdRxqFull s) := by
  unfold deliver at h
  cases hv : s.cfg.variant with
  | bEvent =>
    rw [hv] at h
    cases hr : evByteRx s.sr s.firstPending s with
    | error e => rw [hr] at h; cases h
    | ok u => rw [hr] at h; cases h; exact .inl ⟨rfl, u, rfl, rfl⟩
  | aPolled =>
    rw [hv] at h
    cases h
    by_cases room : s.rxq.length < s.cfg.rxqDepth
    · exact .inr (.inl ⟨rfl, room, if_pos (by simpa [rxqHasRoom] using room)⟩)
    · exact .inr (.inr ⟨rfl, if_neg (by simpa [rxqHasRoom] using room)⟩)

end Sys2Proof.Machine
end

section
/-! What stands above the byte engine, and the moves an operation can make there. -/

namespace Sys2Proof.Machine

/-- The part of the state above the byte engine: the parameters, the inputs to come, layer 2 (10_state.md R11 to
R19) and variant A's queues and sequencer (R27 to R29). -/
structure Upper where
  cfg : Config
  input : List Packet
  req : RequestFrame
  rep : ReplyFrame
  rxHead : BitVec 4
  txHead : BitVec 4
  frameSeq : Byte
  phase : Phase
  rxOvf : Bool
  txOvf : Bool
  diag : List Condition
  rxq : List Byte
  txq : List Byte
  seqState : SeqState

/-- That part of a state. -/
def State.upper (s : State) : Upper where
  cfg := s.cfg
  input := s.input
  req := s.req
  rep := s.rep
  rxHead := s.rxHead
  txHead := s.txHead
  frameSeq := s.frameSeq
  phase := s.phase
  rxOvf := s.rxOvf
  txOvf := s.txOvf
  diag := s.diag
  rxq := s.rxq
  txq := s.txq
  seqState := s.seqState

/-- The moves above the engine, each with the variant it belongs to and the room or the byte it needs. All but
`RESET` and the two codec functions run by themselves make one of these. -/
inductive Upper.Move (u : Upper) : Upper → Prop
  | stay : Move u u
  | compose : Move u { u with rep := replyTo u.req[0] u.frameSeq, frameSeq := u.frameSeq + 1 }
  -- variant B, the events
  | restart (hv : u.cfg.variant = .bEvent) (p : Phase) : Move u { u with rxHead := 0, txHead := 0, phase := p }
  | store (hv : u.cfg.variant = .bEvent) (req : RequestFrame) {c : BitVec 4} (hc : c.toNat < 8) :
      Move u { u with req := req, rxHead := c + 1, phase := .receiving }
  | complete (hv : u.cfg.variant = .bEvent) (d : Byte) :
      Move u { u with req := u.req.set 8 d, rep := replyTo u.req[0] u.frameSeq, rxHead := 9,
                      frameSeq := u.frameSeq + 1, phase := .receiving }
  | rxOverflow (hv : u.cfg.variant = .bEvent) :
      Move u { u with rxHead := 0, rxOvf := true, diag := u.diag ++ [.requestOverflow], phase := .receiving }
  | send (hv : u.cfg.variant = .bEvent) : Move u { u with txHead := u.txHead + 1, phase := .replying }
  | txOverflow (hv : u.cfg.variant = .bEvent) :
      Move u { u with txHead := 0, phase := .replying, txOvf := true, diag := u.diag ++ [.replyOverflow] }
  -- variant A, the queues and the sequencer
  | accept (hv : u.cfg.variant = .aPolled) (d : Byte) (room : u.rxq.length < u.cfg.rxqDepth) :
      Move u { u with rxq := u.rxq ++ [d] }
  | take (hv : u.cfg.variant = .aPolled) {d : Byte} {rest : List Byte} (hq : u.txq = d :: rest) :
      Move u { u with txq := rest }
  | poll (hv : u.cfg.variant = .aPolled) : Move u { u with seqState := .read 0 }
  | read (hv : u.cfg.variant = .aPolled) (k : Fin 9) {d : Byte} {rest : List Byte} (hq : u.rxq = d :: rest) :
      Move u { u with req := u.req.set k.val d, rxq := rest, seqState := seqAfterRead k }
  | sqCompose (hv : u.cfg.variant = .aPolled) :
      Move u { u with rep := replyTo u.req[0] u.frameSeq, frameSeq := u.frameSeq + 1, seqState := .write 0 }
  | write (hv : u.cfg.variant = .aPolled) (k : Fin 15) (room : u.txq.length < u.cfg.txqDepth) :
      Move u { u with txq := u.txq ++ [u.rep[k.val]], seqState := seqAfterWrite k }

/-! The model's functions, seen above the engine. -/

theorem compose_upper (s : State) : s.upper.Move (compose s).upper := by
  rw [compose_eq]; exact .compose

theorem evByteRx_upper {d : Byte} {first : Bool} {s t : State} (hv : s.cfg.variant = .bEvent)
    (h : evByteRx d first s = .ok t) : s.upper.Move t.upper := by
  rcases evByteRx_cases d first s with ⟨lt, e⟩ | ⟨-, e⟩ | ⟨-, e⟩ | ⟨-, e⟩ <;> rw [e] at h <;> cases h
  · exact .store hv _ lt
  · exact .complete hv d
  · exact .rxOverflow hv

theorem evByteReq_upper {s : State} (hv : s.cfg.variant = .bEvent) : s.upper.Move (evByteReq s).2.upper := by
  rcases evByteReq_cases s with ⟨_, e⟩ | ⟨_, e⟩ <;> rw [e]
  · exact .send hv
  · exact .txOverflow hv

theorem fetchToSend_upper (s : State) : s.upper.Move (fetchToSend s).upper := by
  rcases fetchToSend_cases s with ⟨hv, e⟩ | ⟨hv, d, rest, hq, e⟩ | ⟨-, e⟩ <;> rw [e]
  · exact evByteReq_upper hv
  · exact .take hv hq
  · exact .stay

theorem deliver_upper {s t : State} (h : deliver s = .ok t) : s.upper.Move t.upper := by
  rcases deliver_cases h with ⟨hv, u, hu, rfl⟩ | ⟨hv, room, rfl⟩ | ⟨-, rfl⟩
  · exact (evByteRx_upper hv hu : s.upper.Move u.upper)
  · exact .accept hv s.sr room
  · exact .stay

theorem addressDecision_upper (s : State) : (addressDecision s).upper = s.upper := by
  unfold addressDecision; split_ifs <;> rfl

theorem lcRise_upper (sda : Bool) (s : State) : (lcRise sda s).upper = s.upper := by
  unfold lcRise; split <;> (try split_ifs) <;> rfl

theorem sampled_upper (sclC sdaC : Bool) (s : State) : (sampled sclC sdaC s).upper = s.upper := by
  unfold sampled releaseHold; split <;> rfl

theorem FallEffect.upper {s t : State} (h : FallEffect s t) : s.upper.Move t.upper := by
  cases h with
  | nothing | dataAckEnded | bitDriven | releasedForAck => exact .stay
  | decided => rw [addressDecision_upper]; exact .stay
  | addressAckEnded =>
    rcases endAddressAck_cases s with e | e <;> rw [e]
    · exact fetchToSend_upper { s with be := .tx, sdaOut := true, bitcnt := 0 }
    · exact .stay
  | delivered h => exact deliver_upper h
  | acknowledged =>
    rcases afterControllerAck_cases s with e | e <;> rw [e]
    · exact .stay
    · exact fetchToSend_upper s

/-- An event that a line code emits starts the cursors again, above the engine. -/
theorem emitInB_upper {event : State → State} {s u : State} (p : Phase)
    (h : ∀ w : State, (event w).upper = { w.upper with rxHead := 0, txHead := 0, phase := p })
    (hu : u.upper = s.upper) : s.upper.Move (emitInB event u).upper := by
  rw [← hu]
  unfold emitInB
  split
  · next hv => rw [h]; exact .restart hv p
  · exact .stay

theorem LineEffect.upper {i : Instr} {s t : State} (h : LineEffect s i t) : s.upper.Move t.upper := by
  cases h with
  | nop => exact .stay
  | rise => rw [lcRise_upper]; exact .stay
  | fall _ h => exact h.upper
  | start => exact emitInB_upper (event := evStart) .receiving (fun _ => rfl) rfl
  | stop => exact emitInB_upper (event := evStop) .idle (fun _ => rfl) rfl

theorem sqPoll_upper {s : State} (hv : s.cfg.variant = .aPolled) : s.upper.Move (sqPoll s).upper := by
  unfold sqPoll
  split
  · exact .poll hv
  · exact .stay

theorem sqRead_upper {s : State} (hv : s.cfg.variant = .aPolled) (k : Fin 9) :
    s.upper.Move (sqRead k s).upper := by
  unfold sqRead
  split
  · split
    · next hq => exact .read hv k hq
    · exact .stay
  · exact .stay

theorem sqCompose_upper {s : State} (hv : s.cfg.variant = .aPolled) : s.upper.Move (sqCompose s).upper := by
  unfold sqCompose
  split
  · rw [compose_eq]; exact .sqCompose hv
  · exact .stay

theorem sqWrite_upper {s : State} (hv : s.cfg.variant = .aPolled) (k : Fin 15) :
    s.upper.Move (sqWrite k s).upper := by
  unfold sqWrite
  split
  · next h => exact .write hv k (of_decide_eq_true h.2)
  · exact .stay

theorem beResume_upper {s : State} (hv : s.cfg.variant = .aPolled) : s.upper.Move (beResume s).upper := by
  unfold beResume
  split
  · split
    · next room => exact .accept hv s.sr (of_decide_eq_true room)
    · exact .stay
  · split
    · next hq => exact .take hv hq
    · exact .stay
  · exact .stay
  · exact .stay

/-- What an operation does above the engine: `RESET`, a stamp of the counter by a codec function run by itself, or
one move. -/
theorem Effect.upper {i : Instr} {s t : State} (h : Effect s i t) :
    (i = .reset ∧ t = resetState s) ∨
    (((∃ p e, i = .buildReply p e) ∨ ∃ f, i = .seqStamp f) ∧
      t.upper = { s.upper with frameSeq := s.frameSeq + 1 }) ∨
    s.upper.Move t.upper := by
  cases h with
  | reset => exact .inl ⟨rfl, rfl⟩
  | stamped codec => exact .inr (.inl ⟨codec, rfl⟩)
  | addrW | addrR | addrOther | returned => exact .inr (.inr .stay)
  | composed => exact .inr (.inr (compose_upper s))
  | evStart hv => exact .inr (.inr (.restart hv _))
  | evStop hv => exact .inr (.inr (.restart hv _))
  | evByteRx hv h => exact .inr (.inr (evByteRx_upper hv h))
  | evByteReq hv => exact .inr (.inr (evByteReq_upper hv))
  | line h => exact .inr (.inr h.upper)
  | sample h => exact .inr (.inr (sampled_upper _ _ s ▸ h.upper))
  | sqPoll hv => exact .inr (.inr (sqPoll_upper hv))
  | sqRead hv k => exact .inr (.inr (sqRead_upper hv k))
  | sqCompose hv => exact .inr (.inr (sqCompose_upper hv))
  | sqWrite hv k => exact .inr (.inr (sqWrite_upper hv k))
  | beResume hv => exact .inr (.inr (beResume_upper hv))

/-! What every move keeps. -/

theorem Upper.Move.keeps_cfg_input {u v : Upper} (h : u.Move v) : v.cfg = u.cfg ∧ v.input = u.input := by
  cases h <;> exact ⟨rfl, rfl⟩

/-- A move keeps the flags that are set, and adds at most one report (60_exceptions.md R213). -/
theorem Upper.Move.reports {u v : Upper} (h : u.Move v) :
    (u.rxOvf = true → v.rxOvf = true) ∧ (u.txOvf = true → v.txOvf = true) ∧
    (v.diag = u.diag ∨ ∃ c : Condition, v.diag = u.diag ++ [c]) := by
  cases h with
  | rxOverflow => exact ⟨fun _ => rfl, id, .inr ⟨_, rfl⟩⟩
  | txOverflow => exact ⟨id, fun _ => rfl, .inr ⟨_, rfl⟩⟩
  | _ => exact ⟨id, id, .inl rfl⟩

/-- A move that writes `rep` stamps it with the counter and steps the counter, once (40_frame_codec.md R98). -/
theorem Upper.Move.reply {u v : Upper} (h : u.Move v) :
    (v.rep = u.rep ∧ v.frameSeq = u.frameSeq) ∨
    (v.rep = replyTo v.req[0] u.frameSeq ∧ v.frameSeq = u.frameSeq + 1) := by
  cases h with
  | compose | sqCompose => exact .inr ⟨rfl, rfl⟩
  | complete => exact .inr ⟨by simp, rfl⟩
  | _ => exact .inl ⟨rfl, rfl⟩

end Sys2Proof.Machine
end

section
/-! The machine's invariant: its part above the engine, kept by every move, and its part in the engine. -/

namespace Sys2Proof.Machine

/-- The machine's invariant above the engine (10_state.md R12, R34, R40, 60_exceptions.md R207). -/
structure Upper.Sound (u : Upper) : Prop where
  params : u.cfg.Wf
  cursor : u.rxHead ≤ 9
  rxqFits : u.rxq.length ≤ u.cfg.rxqDepth
  txqFits : u.txq.length ≤ u.cfg.txqDepth
  ownA : u.cfg.variant = .aPolled →
    u.rxHead = 0 ∧ u.txHead = 0 ∧ u.phase = .idle ∧ u.rxOvf = false ∧ u.txOvf = false ∧ u.diag = []
  ownB : u.cfg.variant = .bEvent → u.rxq = [] ∧ u.txq = [] ∧ u.seqState = .poll
  rxFlag : u.rxOvf = true ↔ .requestOverflow ∈ u.diag
  txFlag : u.txOvf = true ↔ .replyOverflow ∈ u.diag
  reply : u.rep = u.cfg.replyReset ∨ composedReply u.rep

/-- The machine's invariant in the engine: the bit count in its range, SCL low exactly in a hold, and holds in
variant A only (10_state.md R34, R40, 44_byte_engine.md R202). -/
abbrev State.EngineRange (s : State) : Prop :=
  s.bitcnt ≤ 9 ∧ s.HoldDrivesScl ∧ (s.cfg.variant = .bEvent → s.hold = .none)

theorem inv_iff (s : State) : s.Inv ↔ s.upper.Sound ∧ s.EngineRange := by
  constructor
  · rintro ⟨wf, ⟨hrx, hbit, hrq, htq⟩, ⟨hA, hB⟩, hscl, ⟨hr, ht⟩, hrep⟩
    exact ⟨⟨wf, hrx, hrq, htq, hA, fun hv => ⟨(hB hv).1, (hB hv).2.1, (hB hv).2.2.1⟩, hr, ht, hrep⟩,
      hbit, hscl, fun hv => (hB hv).2.2.2⟩
  · rintro ⟨h, hbit, hscl, hhold⟩
    refine ⟨h.params, ⟨h.cursor, hbit, h.rxqFits, h.txqFits⟩, ⟨h.ownA, fun hv => ?_⟩, hscl,
      ⟨h.rxFlag, h.txFlag⟩, h.reply⟩
    obtain ⟨hrq, htq, hseq⟩ := h.ownB hv
    exact ⟨hrq, htq, hseq, hhold hv⟩

theorem zero_le_nine : (0 : BitVec 4) ≤ 9 := by decide

/-- A cursor below 8 stays in its range by one more byte. -/
theorem succ_le_nine {c : BitVec 4} (h : c.toNat < 8) : c + 1 ≤ 9 := by
  revert c; decide

/-- Every move keeps the invariant above the engine: an event moves nothing of variant A and a queue nothing of
variant B, a queue grows only into its room, a flag is set with its report, and `rep` takes composed replies only. -/
theorem Upper.Move.sound {u v : Upper} (m : u.Move v) (h : u.Sound) : v.Sound := by
  have notA (hv : u.cfg.variant = .bEvent) {p : Prop} (ha : u.cfg.variant = .aPolled) : p := by
    rw [hv] at ha; cases ha
  have notB (hv : u.cfg.variant = .aPolled) {p : Prop} (hb : u.cfg.variant = .bEvent) : p := by
    rw [hv] at hb; cases hb
  cases m with
  | stay => exact h
  | compose => exact { h with reply := .inr (composedReply_replyTo _ _) }
  | restart hv p => exact { h with cursor := zero_le_nine, ownA := notA hv }
  | store hv req hc => exact { h with cursor := succ_le_nine hc, ownA := notA hv }
  | complete hv d =>
    exact { h with cursor := BitVec.le_refl 9, ownA := notA hv, reply := .inr (composedReply_replyTo _ _) }
  | rxOverflow hv =>
    exact { h with cursor := zero_le_nine, ownA := notA hv, rxFlag := by simp, txFlag := by simpa using h.txFlag }
  | send hv => exact { h with ownA := notA hv }
  | txOverflow hv =>
    exact { h with ownA := notA hv, rxFlag := by simpa using h.rxFlag, txFlag := by simp }
  | accept hv d room => exact { h with rxqFits := by simpa using room, ownB := notB hv }
  | take hv hq =>
    have fits := h.txqFits
    rw [hq] at fits
    exact { h with txqFits := Nat.le_of_succ_le fits, ownB := notB hv }
  | poll hv => exact { h with ownB := notB hv }
  | read hv k hq =>
    have fits := h.rxqFits
    rw [hq] at fits
    exact { h with rxqFits := Nat.le_of_succ_le fits, ownB := notB hv }
  | sqCompose hv => exact { h with ownB := notB hv, reply := .inr (composedReply_replyTo _ _) }
  | write hv k room => exact { h with txqFits := by simpa using room, ownB := notB hv }

/-! The engine's part. -/

/-- The invariant's part in the engine speaks of four fields. -/
theorem engineRange_of_same {s t : State} (h : s.EngineRange) (hc : t.cfg = s.cfg) (hn : t.bitcnt = s.bitcnt)
    (ho : t.sclOut = s.sclOut) (hh : t.hold = s.hold) : t.EngineRange := by
  simpa only [State.EngineRange, State.HoldDrivesScl, hc, hn, ho, hh] using h

theorem evByteReq_engineRange {s : State} (h : s.EngineRange) : (evByteReq s).2.EngineRange := by
  obtain ⟨-, hn, -, -, -, -, -, -, -, ho, hh⟩ := evByteReq_same s
  exact engineRange_of_same h (evByteReq_kept s).1 hn ho hh

theorem evByteRx_engineRange {d : Byte} {first : Bool} {s t : State} (hv : s.cfg.variant = .bEvent)
    (e : evByteRx d first s = .ok t) (h : s.EngineRange) : t.EngineRange := by
  obtain ⟨-, hn, -, -, -, -, -, -, -, ho, hh⟩ := evByteRx_same e
  exact engineRange_of_same h (evByteRx_upper hv e).keeps_cfg_input.1 hn ho hh

/-- A count set to a value in its range. -/
theorem engineRange_of_bitcnt {s t : State} (h : s.EngineRange) (hn : t.bitcnt ≤ 9) (hc : t.cfg = s.cfg)
    (ho : t.sclOut = s.sclOut) (hh : t.hold = s.hold) : t.EngineRange := by
  obtain ⟨-, hd, hB⟩ := h
  exact ⟨hn, by simpa only [State.HoldDrivesScl, ho, hh] using hd, by simpa only [hc, hh] using hB⟩

/-- A hold that is entered in variant A, with SCL low. -/
theorem engineRange_of_hold {t : State} (hv : t.cfg.variant = .aPolled) (hn : t.bitcnt ≤ 9)
    (ho : t.sclOut = false) (hh : t.hold ≠ .none) : t.EngineRange :=
  ⟨hn, ⟨fun _ => hh, fun _ => ho⟩, fun hb => by rw [hv] at hb; cases hb⟩

theorem load_engineRange (d : Byte) {s : State} (h : s.EngineRange) : (load d s).EngineRange :=
  engineRange_of_bitcnt h zero_le_nine rfl rfl rfl

theorem fetchToSend_engineRange {s : State} (h : s.EngineRange) : (fetchToSend s).EngineRange := by
  rcases fetchToSend_cases s with ⟨-, e⟩ | ⟨-, d, rest, -, e⟩ | ⟨hv, e⟩ <;> rw [e]
  · exact load_engineRange _ (evByteReq_engineRange h)
  · exact load_engineRange d h
  · exact engineRange_of_hold hv zero_le_nine rfl nofun

theorem deliver_engineRange {s t : State} (e : deliver s = .ok t) (h : s.EngineRange) : t.EngineRange := by
  rcases deliver_cases e with ⟨hv, u, hu, rfl⟩ | ⟨-, -, rfl⟩ | ⟨hv, rfl⟩
  · exact (evByteRx_engineRange hv hu h : u.EngineRange)
  · exact h
  · exact engineRange_of_hold hv h.1 rfl nofun

theorem FallEffect.engineRange {s t : State} (e : FallEffect s t) (h : s.EngineRange) : t.EngineRange := by
  cases e with
  | nothing | bitDriven | releasedForAck => exact h
  | decided => unfold addressDecision; split_ifs <;> exact h
  | addressAckEnded =>
    rcases endAddressAck_cases s with e | e <;> rw [e]
    · exact fetchToSend_engineRange (engineRange_of_bitcnt h zero_le_nine rfl rfl rfl)
    · exact engineRange_of_bitcnt h zero_le_nine rfl rfl rfl
  | delivered e => exact deliver_engineRange e h
  | dataAckEnded => exact engineRange_of_bitcnt h zero_le_nine rfl rfl rfl
  | acknowledged =>
    rcases afterControllerAck_cases s with e | e <;> rw [e]
    · exact engineRange_of_bitcnt h zero_le_nine rfl rfl rfl
    · exact fetchToSend_engineRange h

/-- A rising edge counts a bit, up to 9 (44_byte_engine.md R177 to R179). -/
theorem lcRise_bitcnt_le {sda : Bool} {s : State} (h : s.bitcnt ≤ 9) : (lcRise sda s).bitcnt ≤ 9 := by
  have count : s.bitcnt ≤ 7 → s.bitcnt + 1 ≤ 9 := by
    generalize s.bitcnt = b; revert b; decide
  unfold lcRise
  cases hb : s.be with
  | idle | wait => exact h
  | addr | rx | tx =>
    dsimp only
    split_ifs with h7
    exacts [count h7, BitVec.le_refl 9, h]

theorem emitInB_engineRange {event : State → State} {s : State} (h : s.EngineRange)
    (keeps : (event s).EngineRange) : (emitInB event s).EngineRange := by
  unfold emitInB
  split
  · exact keeps
  · exact h

theorem LineEffect.engineRange {i : Instr} {s t : State} (e : LineEffect s i t) (h : s.EngineRange) :
    t.EngineRange := by
  cases e with
  | nop => exact h
  | rise _ sda =>
    obtain ⟨-, -, -, ho, hh, -, -⟩ := lcRise_keeps sda s
    exact engineRange_of_bitcnt h (lcRise_bitcnt_le h.1) (congrArg Upper.cfg (lcRise_upper sda s)) ho hh
  | fall _ e => exact e.engineRange h
  | start =>
    have r := engineRange_of_bitcnt (t := { s with bitcnt := 0 }) h zero_le_nine rfl rfl rfl
    exact emitInB_engineRange r r
  | stop =>
    have r := engineRange_of_bitcnt (t := { s with bitcnt := 0 }) h zero_le_nine rfl rfl rfl
    exact emitInB_engineRange r r

/-- A sample ends a `HOLD_RELEASE` by letting SCL go (44_byte_engine.md R199). -/
theorem sampled_engineRange {sclC sdaC : Bool} {s : State} (h : s.EngineRange) :
    (sampled sclC sdaC s).EngineRange := by
  by_cases hr : s.hold = .release
  · rw [sampled_of_release hr]
    exact ⟨h.1, ⟨nofun, fun ne => absurd rfl ne⟩, fun _ => rfl⟩
  · rw [sampled_of_no_release hr]
    exact h

theorem beResume_engineRange {s : State} (hv : s.cfg.variant = .aPolled) (h : s.EngineRange) :
    (beResume s).EngineRange := by
  have scl (hh : s.hold ≠ .none) : s.sclOut = false := h.2.1.mpr hh
  unfold beResume
  split
  · next hh =>
    split
    · exact engineRange_of_hold hv h.1 (scl (by simp [hh])) nofun
    · exact h
  · next hh =>
    split
    · exact engineRange_of_hold hv zero_le_nine (scl (by simp [hh])) nofun
    · exact h
  · exact h
  · exact h

theorem compose_engineRange {s : State} (h : s.EngineRange) : (compose s).EngineRange := by
  rw [compose_eq]; exact h

theorem sqPoll_engineRange {s : State} (h : s.EngineRange) : (sqPoll s).EngineRange := by
  unfold sqPoll; split <;> exact h

theorem sqRead_engineRange {s : State} (k : Fin 9) (h : s.EngineRange) : (sqRead k s).EngineRange := by
  unfold sqRead
  split
  · split <;> exact h
  · exact h

theorem sqCompose_engineRange {s : State} (h : s.EngineRange) : (sqCompose s).EngineRange := by
  unfold sqCompose
  split
  · exact (compose_engineRange h : (compose s).EngineRange)
  · exact h

theorem sqWrite_engineRange {s : State} (k : Fin 15) (h : s.EngineRange) : (sqWrite k s).EngineRange := by
  unfold sqWrite; split <;> exact h

/-- Every operation keeps the engine's part. -/
theorem Effect.engineRange {i : Instr} {s t : State} (e : Effect s i t) (h : s.EngineRange) : t.EngineRange := by
  cases e with
  | addrW | addrR | addrOther | returned | stamped | evStart | evStop => exact h
  | composed => exact compose_engineRange h
  | evByteRx hv e => exact evByteRx_engineRange hv e h
  | evByteReq => exact (evByteReq_engineRange h : (Machine.evByteReq s).2.EngineRange)
  | line e => exact e.engineRange h
  | sample e => exact e.engineRange (sampled_engineRange h)
  | sqPoll => exact sqPoll_engineRange h
  | sqRead _ k => exact sqRead_engineRange k h
  | sqCompose => exact sqCompose_engineRange h
  | sqWrite _ k => exact sqWrite_engineRange k h
  | beResume hv => exact beResume_engineRange hv h
  | reset => exact ⟨(by decide : (0 : BitVec 4) ≤ 9), ⟨nofun, fun ne => absurd rfl ne⟩, fun _ => rfl⟩

/-- `RESET` needs no more than parameters in their ranges. -/
theorem resetState_sound {s : State} (wf : s.cfg.Wf) : (resetState s).upper.Sound where
  params := wf
  cursor := (by decide : (0 : BitVec 4) ≤ 9)
  rxqFits := Nat.zero_le _
  txqFits := Nat.zero_le _
  ownA _ := ⟨rfl, rfl, rfl, rfl, rfl, rfl⟩
  ownB _ := ⟨rfl, rfl, rfl⟩
  rxFlag := by simp [State.upper, resetState]
  txFlag := by simp [State.upper, resetState]
  reply := .inl rfl

/-- Every operation keeps the machine's invariant. -/
theorem exec_keeps_inv {i : Instr} {s t : State} (h : s.Inv) (e : exec i s = .next t) : t.Inv := by
  rw [inv_iff] at h ⊢
  obtain ⟨sound, range⟩ := h
  have eff := effect_of_exec e
  refine ⟨?_, eff.engineRange range⟩
  rcases eff.upper with ⟨-, rfl⟩ | ⟨-, stamped⟩ | move
  · exact resetState_sound sound.params
  · rw [stamped]
    exact { sound with }
  · exact move.sound sound

end Sys2Proof.Machine
end

section
/-! The statements of 10_state.md on what a step keeps: O49, O53, O54, O55. -/

namespace Sys2Proof.Machine

/-- Settles O49: an input taken off the list is no part of the invariant, and the operation it decodes to
keeps it. -/
theorem everyStepKeepsTheInvariant : Obligations.EveryStepKeepsTheInvariant := by
  unfold Obligations.EveryStepKeepsTheInvariant
  intro s t h e
  rcases step_next e with ⟨-, rfl⟩ | ⟨p, rest, i, -, -, run⟩
  · exact h
  · exact exec_keeps_inv (s := { s with input := rest }) h run

/-- Settles O53: `RESET` and the codec copy the parameters and the inputs, every other operation is one move. -/
theorem noOperationChangesTheParameters : Obligations.NoOperationChangesTheParameters := by
  unfold Obligations.NoOperationChangesTheParameters
  intro i s t e
  rcases (effect_of_exec e).upper with ⟨-, rfl⟩ | ⟨-, stamped⟩ | move
  · exact ⟨rfl, rfl⟩
  · exact ⟨congrArg Upper.cfg stamped, congrArg Upper.input stamped⟩
  · exact move.keeps_cfg_input

/-- Settles O54: a move reports at most once, and a stamp of the counter reports nothing. -/
theorem reportsAreStickyAndSingle : Obligations.ReportsAreStickyAndSingle := by
  unfold Obligations.ReportsAreStickyAndSingle
  intro i s t notReset e
  rcases (effect_of_exec e).upper with ⟨isReset, -⟩ | ⟨-, stamped⟩ | move
  · exact absurd isReset notReset
  · exact ⟨(congrArg Upper.rxOvf stamped).trans, (congrArg Upper.txOvf stamped).trans,
      .inl (congrArg Upper.diag stamped)⟩
  · exact move.reports

/-- Settles O55: outside the three excluded operations there are moves only. -/
theorem replyAndCounterChangeTogether : Obligations.ReplyAndCounterChangeTogether := by
  unfold Obligations.ReplyAndCounterChangeTogether
  intro i s t notReset notBuild notStamp e
  rcases (effect_of_exec e).upper with ⟨isReset, -⟩ | ⟨⟨p, m, isBuild⟩ | ⟨f, isStamp⟩, -⟩ | move
  · exact absurd isReset notReset
  · exact absurd isBuild (notBuild p m)
  · exact absurd isStamp (notStamp f)
  · exact move.reply

end Sys2Proof.Machine
end

section
/-! Where `first_pending` is set (10_state.md R25): O59. -/

namespace Sys2Proof.Machine

/-- The class of an address byte that is the device's own with a write is one byte (30_encoding.md R67). -/
theorem eq_of_answers_write {b : Byte} (ha : answers (addrField b) = true) (hw : rwField b = false) :
    b = 0x08 := by
  revert b; decide

/-- The decision sets `first_pending` for one address byte. -/
theorem addressDecision_firstPending {s : State} (h0 : s.firstPending = false)
    (h1 : (addressDecision s).firstPending = true) : s.sr = 0x08 := by
  unfold addressDecision at h1
  split_ifs at h1 with ha hw
  · rw [addrR_firstPending, h0] at h1; cases h1
  · exact eq_of_answers_write ha (by simpa using hw)
  · rw [addrOther_firstPending, h0] at h1; cases h1

theorem fetchToSend_firstPending (s : State) : (fetchToSend s).firstPending = s.firstPending := by
  rcases fetchToSend_cases s with ⟨-, e⟩ | ⟨-, d, rest, -, e⟩ | ⟨-, e⟩ <;> rw [e]
  · obtain ⟨-, -, -, -, -, hf, -⟩ := evByteReq_same s
    exact hf
  · rfl
  · rfl

/-- A delivery never sets `first_pending`. -/
theorem deliver_firstPending {s t : State} (e : deliver s = .ok t) (h0 : s.firstPending = false) :
    t.firstPending = false := by
  rcases deliver_cases e with ⟨-, u, -, rfl⟩ | ⟨-, -, rfl⟩ | ⟨-, rfl⟩
  exacts [rfl, rfl, h0]

/-- A falling edge that sets `first_pending` is the decision for the address byte 08. -/
theorem FallEffect.firstPending {s t : State} (e : FallEffect s t) (h0 : s.firstPending = false)
    (h1 : t.firstPending = true) : s.be = .addr ∧ s.bitcnt = 8 ∧ s.sr = 0x08 := by
  have kept {p : Prop} (h : t.firstPending = false) : p := by rw [h] at h1; cases h1
  cases e with
  | nothing | dataAckEnded | bitDriven | releasedForAck => exact kept h0
  | decided hb h8 => exact ⟨hb, h8, addressDecision_firstPending h0 h1⟩
  | addressAckEnded =>
    rcases endAddressAck_cases s with e | e
    · exact kept (by rw [e, fetchToSend_firstPending]; exact h0)
    · exact kept (by rw [e]; exact h0)
  | delivered e => exact kept (deliver_firstPending e h0)
  | acknowledged =>
    rcases afterControllerAck_cases s with e | e
    · exact kept (by rw [e]; exact h0)
    · exact kept (by rw [e, fetchToSend_firstPending]; exact h0)

theorem lcRise_firstPending (sda : Bool) (s : State) : (lcRise sda s).firstPending = s.firstPending := by
  unfold lcRise; split <;> (try split_ifs) <;> rfl

theorem emitInB_firstPending {event : State → State}
    (h : ∀ w : State, (event w).firstPending = w.firstPending) (s : State) :
    (emitInB event s).firstPending = s.firstPending := by
  unfold emitInB
  split
  · exact h s
  · rfl

/-- A line code that sets `first_pending` is a falling edge, and the decision for the address byte 08. -/
theorem LineEffect.firstPending {i : Instr} {s t : State} (e : LineEffect s i t) (h0 : s.firstPending = false)
    (h1 : t.firstPending = true) :
    (i = .lcFall1000 ∨ i = .lcFall1101) ∧ s.be = .addr ∧ s.bitcnt = 8 ∧ s.sr = 0x08 := by
  have kept {p : Prop} (h : t.firstPending = false) : p := by rw [h] at h1; cases h1
  cases e with
  | nop => exact kept h0
  | rise _ sda => exact kept (by rw [lcRise_firstPending]; exact h0)
  | fall hi e => exact ⟨hi, e.firstPending h0 h1⟩
  | start => exact kept (emitInB_firstPending (fun w => evStart_firstPending w) _)
  | stop => exact kept (emitInB_firstPending (fun w => evStop_firstPending w) _)

/-- What the decision reads is not written by the sampling of the lines. -/
theorem sampled_keeps (sclC sdaC : Bool) (s : State) :
    (sampled sclC sdaC s).be = s.be ∧ (sampled sclC sdaC s).bitcnt = s.bitcnt ∧
    (sampled sclC sdaC s).sr = s.sr ∧ (sampled sclC sdaC s).firstPending = s.firstPending := by
  unfold sampled releaseHold
  split <;> exact ⟨rfl, rfl, rfl, rfl⟩

theorem beResume_firstPending {s : State} (h : s.firstPending = false) : (beResume s).firstPending = false := by
  unfold beResume
  split
  · split
    · rfl
    · exact h
  · split <;> exact h
  · exact h
  · exact h

theorem sqPoll_firstPending (s : State) : (sqPoll s).firstPending = s.firstPending := by
  unfold sqPoll; split <;> rfl

theorem sqCompose_firstPending (s : State) : (sqCompose s).firstPending = s.firstPending := by
  unfold sqCompose; split <;> rfl

theorem sqWrite_firstPending (k : Fin 15) (s : State) : (sqWrite k s).firstPending = s.firstPending := by
  unfold sqWrite; split <;> rfl

theorem sqRead_firstPending (k : Fin 9) (s : State) : (sqRead k s).firstPending = s.firstPending := by
  unfold sqRead
  split
  · split <;> rfl
  · rfl

/-- Of all effects only `ADDR_W` and a falling edge, by itself or in a sample, set `first_pending`. -/
theorem Effect.firstPending {i : Instr} {s t : State} (e : Effect s i t) (h0 : s.firstPending = false)
    (h1 : t.firstPending = true) :
    i = .addrW ∨
    ((i = .lcFall1000 ∨ i = .lcFall1101 ∨ ∃ sclC sdaC, i = .sample sclC sdaC) ∧
      s.be = .addr ∧ s.bitcnt = 8 ∧ s.sr = 0x08) := by
  have kept {p : Prop} (h : t.firstPending = false) : p := by rw [h] at h1; cases h1
  cases e with
  | addrW => exact .inl rfl
  | line e =>
    obtain ⟨isFall, at8⟩ := e.firstPending h0 h1
    exact .inr ⟨isFall.elim .inl (.inr ∘ .inl), at8⟩
  | @sample sclC sdaC _ _ e =>
    obtain ⟨hb, hn, hs, hf⟩ := sampled_keeps sclC sdaC s
    obtain ⟨-, at8⟩ := e.firstPending (hf.trans h0) h1
    rw [hb, hn, hs] at at8
    exact .inr ⟨.inr (.inr ⟨sclC, sdaC, rfl⟩), at8⟩
  | addrR | addrOther | returned | stamped | evStart | evStop | composed => exact kept h0
  | evByteRx hv e =>
    obtain ⟨-, -, -, -, -, hf, -⟩ := evByteRx_same e
    exact kept (hf.trans h0)
  | evByteReq =>
    obtain ⟨-, -, -, -, -, hf, -⟩ := evByteReq_same s
    exact kept (hf.trans h0)
  | sqPoll => exact kept ((sqPoll_firstPending s).trans h0)
  | sqRead _ k => exact kept ((sqRead_firstPending k s).trans h0)
  | sqCompose => exact kept ((sqCompose_firstPending s).trans h0)
  | sqWrite _ k => exact kept ((sqWrite_firstPending k s).trans h0)
  | beResume => exact kept (beResume_firstPending h0)
  | reset => exact kept rfl

/-- Settles O59: the operation that completed has its effect. -/
theorem firstPendingComesFromTheWriteAddress : Obligations.FirstPendingComesFromTheWriteAddress :=
  fun _ _ _ e h0 h1 => (effect_of_exec e).firstPending h0 h1

end Sys2Proof.Machine
end

section
/-! What completes and what is refused: O52, O28. -/

namespace Sys2Proof.Machine

theorem exec_evStart (s : State) : exec .evStart s = onlyInB (fun t => .ok (evStart t)) s := rfl

theorem exec_evStop (s : State) : exec .evStop s = onlyInB (fun t => .ok (evStop t)) s := rfl

theorem exec_evByteReq (s : State) :
    exec .evByteReq s = onlyInB (fun t => .ok { (evByteReq t).2 with ret := .byte (evByteReq t).1 }) s := rfl

theorem onlyInA_eq {s : State} (hv : s.cfg.variant = .aPolled) (op : State → State) :
    onlyInA op s = .next (op s) := by
  unfold onlyInA; rw [hv]

theorem onlyInA_absent {s : State} (hv : s.cfg.variant = .bEvent) (op : State → State) :
    onlyInA op s = .refused .absentInVariantB := by
  unfold onlyInA; rw [hv]

theorem onlyInB_eq {s : State} (hv : s.cfg.variant = .bEvent) (op : State → Except Fault State) :
    onlyInB op s = answer (op s) := by
  unfold onlyInB; rw [hv]

theorem onlyInB_absent {s : State} (hv : s.cfg.variant = .aPolled) (op : State → Except Fault State) :
    onlyInB op s = .refused .absentInVariantA := by
  unfold onlyInB; rw [hv]

/-- Settles O28: the guard of each operation, in the other variant. -/
theorem theOtherVariantsOperationsAreRefused : Obligations.TheOtherVariantsOperationsAreRefused := by
  unfold Obligations.TheOtherVariantsOperationsAreRefused
  refine ⟨fun s hv => ?_, fun s hv => ?_⟩
  · exact ⟨(exec_evStart s).trans (onlyInB_absent hv _), (exec_evStop s).trans (onlyInB_absent hv _),
      fun _ _ => onlyInB_absent hv _, (exec_evByteReq s).trans (onlyInB_absent hv _)⟩
  · exact ⟨onlyInA_absent hv _, onlyInA_absent hv _, fun _ => onlyInA_absent hv _,
      fun _ => onlyInA_absent hv _, onlyInA_absent hv _⟩

/-- With the receive cursor in its range a received byte never meets a byte `req` does not have. -/
theorem evByteRx_completes {s : State} (h : s.rxHead ≤ 9) (d : Byte) (first : Bool) :
    ∃ t, evByteRx d first s = .ok t := by
  have inRange : cursorFor first s ≤ 9 := by
    cases first
    · exact h
    · exact zero_le_nine
  rcases evByteRx_cases d first s with ⟨_, e⟩ | ⟨_, e⟩ | ⟨_, e⟩ | ⟨beyond, _⟩
  · exact ⟨_, e⟩
  · exact ⟨_, e⟩
  · exact ⟨_, e⟩
  · exact absurd inRange (BitVec.not_le.mpr beyond)

theorem deliver_completes {s : State} (h : s.rxHead ≤ 9) : ∃ t, deliver s = .ok t := by
  unfold deliver
  split
  · obtain ⟨t, e⟩ := evByteRx_completes h s.sr s.firstPending
    rw [e]
    exact ⟨_, rfl⟩
  · exact ⟨_, rfl⟩

/-- A falling edge can fail only at a delivery. -/
theorem lcFall_completes {s : State} (h : s.rxHead ≤ 9) : ∃ t, lcFall s = .ok t := by
  unfold lcFall
  cases hb : s.be with
  | rx =>
    dsimp only
    split_ifs
    exacts [deliver_completes h, ⟨_, rfl⟩, ⟨_, rfl⟩]
  | addr | tx => dsimp only; split_ifs <;> exact ⟨_, rfl⟩
  | idle | wait => exact ⟨_, rfl⟩

theorem answer_completes {r : Except Fault State} (h : ∃ t, r = .ok t) : ∃ t, answer r = .next t := by
  obtain ⟨t, rfl⟩ := h
  exact ⟨t, rfl⟩

/-- A sample inside the line rules is one of five kinds, and only a falling edge could fail. -/
theorem exec_sample_completes {sclC sdaC : Bool} {s : State} (h : s.rxHead ≤ 9)
    (sound : SampleSound sclC sdaC s) : ∃ t, exec (.sample sclC sdaC) s = .next t := by
  have cursor : (sampled sclC sdaC s).rxHead ≤ 9 := by
    have e : (sampled sclC sdaC s).rxHead = s.rxHead := congrArg Upper.rxHead (sampled_upper sclC sdaC s)
    rw [e]; exact h
  rcases exec_sample_cases sound with
    ⟨_, _, e⟩ | ⟨_, _, _, e⟩ | ⟨_, _, _, e⟩ | ⟨_, _, _, _, e⟩ | ⟨_, _, _, _, e⟩ <;> rw [e]
  case inr.inr.inl => exact answer_completes (lcFall_completes cursor)
  all_goals exact ⟨_, rfl⟩

/-- Settles O52: a reserved row is excluded, an event and a sequencer step run in their own variant, and what can
reach a fault, a received byte, does not with its cursor in range. -/
theorem everyOtherOperationCompletes : Obligations.EveryOtherOperationCompletes := by
  unfold Obligations.EveryOtherOperationCompletes
  intro i s cursor notEw not0011 not0110 not1001 not1100 samples events steps
  cases i with
  | evStart => exact ⟨_, (exec_evStart s).trans (onlyInB_eq (events (by simp)) _)⟩
  | evStop => exact ⟨_, (exec_evStop s).trans (onlyInB_eq (events (by simp)) _)⟩
  | evByteReq => exact ⟨_, (exec_evByteReq s).trans (onlyInB_eq (events (by simp)) _)⟩
  | evByteRx d first =>
    obtain ⟨t, e⟩ := answer_completes (evByteRx_completes cursor d first)
    exact ⟨t, (onlyInB_eq (events (by simp)) _).trans e⟩
  | ewReservedStart low => exact absurd rfl (notEw low).1
  | ewReservedStop low => exact absurd rfl (notEw low).2.1
  | ewReservedReq low => exact absurd rfl (notEw low).2.2
  | lcReserved0011 => exact absurd rfl not0011
  | lcReserved0110 => exact absurd rfl not0110
  | lcReserved1001 => exact absurd rfl not1001
  | lcReserved1100 => exact absurd rfl not1100
  | lcFall1000 | lcFall1101 => exact answer_completes (lcFall_completes cursor)
  | sqPoll | sqRead | sqCompose | sqWrite | beResume => exact ⟨_, onlyInA_eq (steps (by simp)) _⟩
  | sample sclC sdaC => exact exec_sample_completes cursor (samples sclC sdaC rfl)
  | _ => exact ⟨_, rfl⟩

end Sys2Proof.Machine
end

section
/-! The state after reset: O9, O48. -/

namespace Sys2Proof.Machine

/-- Settles O9: each field as `State.reset` is written. -/
theorem resetStateIsIdle : Obligations.ResetStateIsIdle := by
  unfold Obligations.ResetStateIsIdle
  decide

/-- `State.reset` has the machine's invariant: its parameters are in their ranges, nothing is reported or queued,
and `rep` is `REPLY_RESET`. -/
theorem reset_inv : State.reset.Inv := by decide

/-- `State.reset` has the engine's invariant: `BE_IDLE`, no hold, both lines high. -/
theorem reset_engineInv : State.reset.EngineInv :=
  ⟨driveInv_idle rfl rfl rfl ⟨rfl, rfl, rfl⟩, fun _ => ⟨rfl, rfl, rfl⟩, nofun, nofun⟩

/-- Settles O48: the base of both invariants. -/
theorem resetHasTheInvariants : Obligations.ResetHasTheInvariants :=
  ⟨reset_inv, reset_engineInv⟩

end Sys2Proof.Machine
end

section
/-! One byte written, by `MemWrite` (20_memory.md R41, R44): O56. -/

namespace Sys2Proof.Machine

theorem memRead_memWrite_same {space : Space} {i : Nat} {v : Byte} {s t : State}
    (h : memWrite space i v s = .ok t) : memRead space i t = .ok v := by
  rcases memWrite_cases h with ⟨rfl, hi, rfl⟩ | ⟨rfl, hi, rfl⟩ <;> simp [memRead, hi]

/-- A byte of the written space at another index stays, and the other spaces are other parts of the state. -/
theorem memRead_memWrite_other {space other : Space} {i j : Nat} {v : Byte} {s t : State}
    (h : memWrite space i v s = .ok t) (ne : ¬ (other = space ∧ j = i)) :
    memRead other j t = memRead other j s := by
  rcases memWrite_cases h with ⟨rfl, hi, rfl⟩ | ⟨rfl, hi, rfl⟩
  · cases other with
    | req =>
      have index : i ≠ j := fun e => ne ⟨rfl, e.symm⟩
      simp [memRead, Vector.getElem_set_ne, index]
    | rep | rom => rfl
  · cases other with
    | rep =>
      have index : i ≠ j := fun e => ne ⟨rfl, e.symm⟩
      simp [memRead, Vector.getElem_set_ne, index]
    | req | rom => rfl

/-- The bytes that take a write: those of `REQ` and of `REP`, and no byte of `ROM`. -/
theorem memWrite_completes_iff (space : Space) (i : Nat) (v : Byte) (s : State) :
    (∃ t, memWrite space i v s = .ok t) ↔ (space = .req ∧ i < 9) ∨ (space = .rep ∧ i < 15) := by
  constructor
  · rintro ⟨t, h⟩
    rcases memWrite_cases h with ⟨isReq, hi, -⟩ | ⟨isRep, hi, -⟩
    · exact .inl ⟨isReq, hi⟩
    · exact .inr ⟨isRep, hi⟩
  · rintro (⟨rfl, hi⟩ | ⟨rfl, hi⟩)
    · exact ⟨_, dif_pos hi⟩
    · exact ⟨_, dif_pos hi⟩

/-- Settles O56: the byte written, the other bytes, and where a write exists. -/
theorem memoryWriteChangesOneByte : Obligations.MemoryWriteChangesOneByte :=
  fun space i v s =>
    ⟨fun _ h => ⟨memRead_memWrite_same h, fun _ _ ne => memRead_memWrite_other h ne⟩,
      memWrite_completes_iff space i v s⟩

end Sys2Proof.Machine
end

section
/-! No operation faults while the receive cursor is in its range (20_memory.md R62, 10_state.md R34): O51. -/

namespace Sys2Proof.Machine

/-- An operation of variant A is run or refused. -/
theorem onlyInA_ne_fault (op : State → State) (s : State) (e : Fault) : onlyInA op s ≠ .fault e := by
  unfold onlyInA
  split <;> nofun

theorem answer_ne_fault {r : Except Fault State} (h : ∃ t, r = .ok t) (e : Fault) : answer r ≠ .fault e := by
  obtain ⟨t, rfl⟩ := h
  nofun

/-- An operation of variant B that meets every byte it needs is run or refused. -/
theorem onlyInB_ne_fault {op : State → Except Fault State} {s : State} (h : ∃ t, op s = .ok t) (e : Fault) :
    onlyInB op s ≠ .fault e := by
  unfold onlyInB
  split
  · exact answer_ne_fault h e
  · nofun

theorem onlyInB_total_ne_fault (op : State → State) (s : State) (e : Fault) :
    onlyInB (fun t => .ok (op t)) s ≠ .fault e :=
  onlyInB_ne_fault (op := fun t => .ok (op t)) ⟨_, rfl⟩ e

/-- A sample inside the line rules completes, and any other is refused. -/
theorem exec_sample_ne_fault {s : State} (cursor : s.rxHead ≤ 9) (sclC sdaC : Bool) (e : Fault) :
    exec (.sample sclC sdaC) s ≠ .fault e := by
  by_cases sound : SampleSound sclC sdaC s
  · obtain ⟨t, run⟩ := exec_sample_completes cursor sound
    rw [run]
    nofun
  · obtain ⟨r, -, refused⟩ := exec_sample_of_breach sound
    rw [refused]
    nofun

/-- Only a received byte, by its event, a falling edge or a sample, can meet a byte `req` does not have, and with
the cursor in its range it meets none. -/
theorem exec_ne_fault {s : State} (cursor : s.rxHead ≤ 9) (i : Instr) (e : Fault) : exec i s ≠ .fault e := by
  cases i with
  | evByteRx d first => exact onlyInB_ne_fault (evByteRx_completes cursor d first) e
  | lcFall1000 | lcFall1101 => exact answer_ne_fault (lcFall_completes cursor) e
  | sample sclC sdaC => exact exec_sample_ne_fault cursor sclC sdaC e
  | evStart => exact onlyInB_total_ne_fault evStart s e
  | evStop => exact onlyInB_total_ne_fault evStop s e
  | evByteReq => exact onlyInB_total_ne_fault (fun t => { (evByteReq t).2 with ret := .byte (evByteReq t).1 }) s e
  | sqPoll | sqRead | sqCompose | sqWrite | beResume => exact onlyInA_ne_fault _ s e
  | _ => nofun

/-- Settles O51: a step rests, refuses an input that is no operation, or runs one, and the invariant bounds the
receive cursor. -/
theorem noStepFaults : Obligations.NoStepFaults := by
  unfold Obligations.NoStepFaults
  intro s e inv
  have cursor : s.rxHead ≤ 9 := ((inv_iff s).mp inv).1.cursor
  cases hin : s.input with
  | nil =>
    rw [step_of_input_nil hin]
    nofun
  | cons p rest =>
    cases hd : decode p with
    | ok i =>
      rw [step_of_decode_ok hin hd]
      exact exec_ne_fault (s := { s with input := rest }) cursor i e
    | error why =>
      rw [step_of_decode_error hin hd]
      nofun

end Sys2Proof.Machine
end

section
/-! The words of the encoded formats by their fields (30_encoding.md R66, R73, R79, R84). -/

namespace Sys2Proof

/-- A word with nothing above its low `n` bits is those bits behind zeros. -/
theorem zero_append_extractLsb' {m n : Nat} {x : BitVec (m + n)} (small : x.toNat < 2 ^ n) :
    (0 : BitVec m) ++ x.extractLsb' 0 n = x := by
  have high : x.extractLsb' n m = 0 := by
    apply BitVec.eq_of_toNat_eq
    simp [BitVec.extractLsb'_toNat, Nat.shiftRight_eq_div_pow, Nat.div_eq_of_lt small]
  rw [← high]
  exact BitVec.extractLsb'_append_extractLsb'

theorem extractLsb'_zero_add {w : Nat} (x : BitVec w) (m n : Nat) :
    x.extractLsb' 0 (m + n) = x.extractLsb' n m ++ x.extractLsb' 0 n :=
  (BitVec.extractLsb'_append_extractLsb'_eq_extractLsb' (Nat.zero_add n).symm).symm

theorem toNat_zero_append_lt {m n : Nat} (y : BitVec n) : ((0 : BitVec m) ++ y).toNat < 2 ^ n := by
  simpa using y.isLt

theorem eq_ofNat_of_toNat {w n : Nat} {x : BitVec w} (h : x.toNat = n) : x = BitVec.ofNat w n := by
  rw [← h, BitVec.ofNat_toNat, BitVec.setWidth_eq]

theorem ofBool_getLsbD {w : Nat} (x : BitVec w) (i : Nat) : BitVec.ofBool (x.getLsbD i) = x.extractLsb' i 1 := by
  apply BitVec.eq_of_getLsbD_eq
  intro j hj
  obtain rfl : j = 0 := by omega
  simp

theorem bitVec2_cases (x : BitVec 2) : x = 0 ∨ x = 1 ∨ x = 2 ∨ x = 3 := by
  revert x; decide

/-- An address byte is its address over its direction bit (R66). -/
theorem addr_append_rw (b : Byte) : b.extractLsb' 1 7 ++ BitVec.ofBool (b.getLsbD 0) = b := by
  rw [ofBool_getLsbD]
  exact BitVec.extractLsb'_append_extractLsb'

theorem decodeAB_append (addr : BitVec 7) (rw : Bool) :
    decodeAB (addr ++ BitVec.ofBool rw) =
      if addr = slaveAddr then (if rw then .addrR else .addrW) else .addrOther addr rw := by
  have bit : (addr ++ BitVec.ofBool rw).getLsbD 0 = rw := by
    rw [BitVec.getLsbD_append]; cases rw <;> rfl
  have field : (addr ++ BitVec.ofBool rw).extractLsb' 1 7 = addr := BitVec.extractLsb'_append_eq_left
  rw [decodeAB, bit, field]

/-- Any request byte but the four exact rows (R70). -/
theorem decodeRQ0_other {m : Byte} (h1 : m ≠ 1) (h3 : m ≠ 3) (h4 : m ≠ 4) (h5 : m ≠ 5) :
    decodeRQ0 m = .modeFallback m := by
  rw [decodeRQ0, if_neg h1, if_neg h3, if_neg h4, if_neg h5]

/-- The row of an event word, by its kind and its nine low bits (R73 to R78). -/
theorem decodeEW_append (kind : BitVec 2) (low : BitVec 9) :
    decodeEW (kind ++ low) =
      if kind = 0 then (if low = 0 then .evStart else .ewReservedStart low)
      else if kind = 1 then (if low = 0 then .evStop else .ewReservedStop low)
      else if kind = 2 then .evByteRx (low.extractLsb' 0 8) (low.getLsbD 8)
      else (if low = 0 then .evByteReq else .ewReservedReq low) := by
  have bit10 : (kind ++ low).getLsbD 10 = kind.getLsbD 1 := by rw [BitVec.getLsbD_append]; rfl
  have bit9 : (kind ++ low).getLsbD 9 = kind.getLsbD 0 := by rw [BitVec.getLsbD_append]; rfl
  have bit8 : (kind ++ low).getLsbD 8 = low.getLsbD 8 := by rw [BitVec.getLsbD_append]; rfl
  have field : (kind ++ low).extractLsb' 0 9 = low := BitVec.extractLsb'_append_eq_right
  have data : (kind ++ low).extractLsb' 0 8 = low.extractLsb' 0 8 := by
    rw [BitVec.extractLsb'_append_eq_ite]; rfl
  rw [decodeEW, bit10, bit9, bit8, field, data]
  obtain rfl | rfl | rfl | rfl := bitVec2_cases kind <;> rfl

/-- The row of a sequencer code, by its `op` and its `k` (R84). -/
theorem decodeSQ_append (op : BitVec 2) (k : BitVec 4) :
    decodeSQ (op ++ k) =
      if op = 0 then (if k.toNat = 0 then some .sqPoll else none)
      else if op = 1 then (if h : k.toNat < 9 then some (.sqRead ⟨k.toNat, h⟩) else none)
      else if op = 2 then (if k.toNat = 0 then some .sqCompose else none)
      else (if h : k.toNat < 15 then some (.sqWrite ⟨k.toNat, h⟩) else none) := by
  have bit5 : (op ++ k).getLsbD 5 = op.getLsbD 1 := by rw [BitVec.getLsbD_append]; rfl
  have bit4 : (op ++ k).getLsbD 4 = op.getLsbD 0 := by rw [BitVec.getLsbD_append]; rfl
  have field : (op ++ k).extractLsb' 0 4 = k := BitVec.extractLsb'_append_eq_right
  rw [decodeSQ, bit5, bit4, field]
  obtain rfl | rfl | rfl | rfl := bitVec2_cases op <;> rfl

end Sys2Proof
end

section
/-! Decode after encode and encode after decode, format by format: O1, O2. -/

namespace Sys2Proof

/-- `p` is the word of the well-formed operation `i`. -/
abbrev IsWordOf (p : Packet) (i : Instr) : Prop := encode i = p ∧ i.wellFormed = true

/-- A width check that passed. -/
theorem of_ite_error_eq_ok {c : Prop} [Decidable c] {r : Except DecodeError Instr} {e : DecodeError} {i : Instr}
    (h : (if c then r else .error e) = .ok i) : c ∧ r = .ok i := by
  split at h
  · next hc => exact ⟨hc, h⟩
  · cases h

theorem isWordOf_decodeAB (b : Byte) : IsWordOf ⟨.ab, [b]⟩ (decodeAB b) := by
  rw [← addr_append_rw b, decodeAB_append]
  generalize b.extractLsb' 1 7 = addr, b.getLsbD 0 = rw
  by_cases own : addr = slaveAddr
  · subst own
    cases rw <;> exact ⟨rfl, rfl⟩
  · rw [if_neg own]
    exact ⟨rfl, bne_iff_ne.mpr own⟩

theorem isWordOf_decodeRQ0 (m : Byte) : IsWordOf ⟨.rq0, [m]⟩ (decodeRQ0 m) := by
  by_cases exactRow : m = 1 ∨ m = 3 ∨ m = 4 ∨ m = 5
  · rcases exactRow with rfl | rfl | rfl | rfl <;> exact ⟨rfl, rfl⟩
  · simp only [not_or] at exactRow
    obtain ⟨h1, h3, h4, h5⟩ := exactRow
    rw [decodeRQ0_other h1 h3 h4 h5]
    refine ⟨rfl, ?_⟩
    simp only [Instr.wellFormed, Bool.and_eq_true, bne_iff_ne]
    exact ⟨⟨⟨h1, h3⟩, h4⟩, h5⟩

/-- The two bytes of an event word are its fields: the kind and the highest of the nine low bits come from the
second byte (R73). -/
theorem encodeEW_fields {lo hi : Byte} (small : hi.toNat < 8) :
    encodeEW (hi.extractLsb' 1 2) (hi.extractLsb' 0 1 ++ lo) = ⟨.ew, [lo, hi]⟩ := by
  have data : (hi.extractLsb' 0 1 ++ lo).extractLsb' 0 8 = lo := BitVec.extractLsb'_append_eq_right
  have first : (hi.extractLsb' 0 1 ++ lo).extractLsb' 8 1 = hi.extractLsb' 0 1 :=
    BitVec.extractLsb'_append_eq_left
  have high : (0 : BitVec 5) ++ hi.extractLsb' 1 2 ++ hi.extractLsb' 0 1 = hi := by
    rw [BitVec.append_assoc, ← extractLsb'_zero_add hi 2 1]
    exact zero_append_extractLsb' small
  rw [encodeEW, data, first, high]

theorem isWordOf_decodeEW_append (kind : BitVec 2) (low : BitVec 9) :
    IsWordOf (encodeEW kind low) (decodeEW (kind ++ low)) := by
  have byte : BitVec.ofBool (low.getLsbD 8) ++ low.extractLsb' 0 8 = low := by
    rw [ofBool_getLsbD]
    exact BitVec.extractLsb'_append_extractLsb'
  rw [decodeEW_append]
  obtain rfl | rfl | rfl | rfl := bitVec2_cases kind
  case inr.inr.inl => exact ⟨congrArg (encodeEW 2) byte, rfl⟩
  all_goals
    by_cases zero : low = 0
    · subst zero; exact ⟨rfl, rfl⟩
    · simp only [if_neg zero]
      exact ⟨rfl, bne_iff_ne.mpr zero⟩

theorem decode_of_eventRow {kind : BitVec 2} {low : BitVec 9} {i : Instr} (row : decodeEW (kind ++ low) = i) :
    decode (encodeEW kind low) = .ok i :=
  (decode_encodeEW kind low).trans (congrArg Except.ok row)

theorem isWordOf_decodeEW {lo hi : Byte} (small : hi.toNat < 8) :
    IsWordOf ⟨.ew, [lo, hi]⟩ (decodeEW (hi.extractLsb' 0 3 ++ lo)) := by
  have fields : hi.extractLsb' 0 3 ++ lo = hi.extractLsb' 1 2 ++ (hi.extractLsb' 0 1 ++ lo) := by
    rw [extractLsb'_zero_add hi 2 1]
    exact BitVec.append_assoc
  rw [fields, ← encodeEW_fields small]
  exact isWordOf_decodeEW_append _ _

theorem isWordOf_decodeLC {c : Byte} (small : c.toNat < 16) :
    IsWordOf ⟨.lc, [c]⟩ (decodeLC (c.extractLsb' 0 4)) := by
  have word : encodeLC (c.extractLsb' 0 4) = ⟨.lc, [c]⟩ := by rw [encodeLC, zero_append_extractLsb' small]
  rw [← word]
  generalize c.extractLsb' 0 4 = code
  revert code; decide

theorem isWordOf_of_decodeSQ_append {op : BitVec 2} {k : BitVec 4} {i : Instr} (h : decodeSQ (op ++ k) = some i) :
    IsWordOf (encodeSQ op k) i := by
  have index : BitVec.ofNat 4 k.toNat = k := by simp
  rw [decodeSQ_append] at h
  obtain rfl | rfl | rfl | rfl := bitVec2_cases op
  · obtain ⟨zero, rfl⟩ : k.toNat = 0 ∧ Instr.sqPoll = i := by simpa using h
    obtain rfl : k = 0 := BitVec.eq_of_toNat_eq zero
    exact ⟨rfl, rfl⟩
  · obtain ⟨lt, rfl⟩ : ∃ lt : k.toNat < 9, Instr.sqRead ⟨k.toNat, lt⟩ = i := by simpa using h
    exact ⟨congrArg (encodeSQ 1) index, rfl⟩
  · obtain ⟨zero, rfl⟩ : k.toNat = 0 ∧ Instr.sqCompose = i := by simpa using h
    obtain rfl : k = 0 := BitVec.eq_of_toNat_eq zero
    exact ⟨rfl, rfl⟩
  · obtain ⟨lt, rfl⟩ : ∃ lt : k.toNat < 15, Instr.sqWrite ⟨k.toNat, lt⟩ = i := by simpa using h
    exact ⟨congrArg (encodeSQ 3) index, rfl⟩

theorem decodeSQ_read (k : Fin 9) : decodeSQ ((1 : BitVec 2) ++ BitVec.ofNat 4 k.val) = some (.sqRead k) := by
  revert k; decide

theorem decodeSQ_write (k : Fin 15) : decodeSQ ((3 : BitVec 2) ++ BitVec.ofNat 4 k.val) = some (.sqWrite k) := by
  revert k; decide

theorem decode_encodeSQ {op : BitVec 2} {k : BitVec 4} {i : Instr} (h : decodeSQ (op ++ k) = some i) :
    decode (encodeSQ op k) = .ok i := by
  have word : (0 : BitVec 2) ++ op ++ k = (0 : BitVec 2) ++ (op ++ k) := BitVec.append_assoc
  have code : ((0 : BitVec 2) ++ (op ++ k)).extractLsb' 0 6 = op ++ k := BitVec.extractLsb'_append_eq_right
  rw [encodeSQ, word]
  refine (if_pos (toNat_zero_append_lt (op ++ k))).trans ?_
  rw [code, h]

theorem isWordOf_of_decodeSQ {c : Byte} {i : Instr} (small : c.toNat < 64)
    (h : decodeSQ (c.extractLsb' 0 6) = some i) : IsWordOf ⟨.sq, [c]⟩ i := by
  have fields : c.extractLsb' 0 6 = c.extractLsb' 4 2 ++ c.extractLsb' 0 4 := extractLsb'_zero_add c 2 4
  have word : encodeSQ (c.extractLsb' 4 2) (c.extractLsb' 0 4) = ⟨.sq, [c]⟩ := by
    have byte : (0 : BitVec 2) ++ c.extractLsb' 4 2 ++ c.extractLsb' 0 4 = c := by
      rw [BitVec.append_assoc, ← fields]
      exact zero_append_extractLsb' small
    rw [encodeSQ, byte]
  rw [← word]
  exact isWordOf_of_decodeSQ_append (fields ▸ h)

/-- A byte below 4 is its two low bits, the levels of a sample (log 6). -/
theorem zero_append_levels {l : Byte} (small : l.toNat < 4) :
    (0 : BitVec 6) ++ BitVec.ofBool (l.getLsbD 1) ++ BitVec.ofBool (l.getLsbD 0) = l := by
  rw [ofBool_getLsbD, ofBool_getLsbD, BitVec.append_assoc, ← extractLsb'_zero_add l 1 1]
  exact zero_append_extractLsb' small

/-- By the number of the function, then by the operands it takes (log 6). -/
theorem isWordOf_of_decodeFN {op : Byte} {args : List Byte} {i : Instr} (h : decodeFN op args = .ok i) :
    IsWordOf ⟨.fn, op :: args⟩ i := by
  unfold decodeFN at h
  split at h
  case h_7 => cases h
  all_goals
    rename_i number
    obtain rfl := eq_ofNat_of_toNat number
    split at h
    case h_2 => cases h
  · cases h
    exact ⟨rfl, rfl⟩
  · cases h
    exact ⟨rfl, rfl⟩
  · next p e payload echo =>
    cases h
    have operands : p.toList ++ [e] = args := by
      rw [toList_of_bytesVec? payload, ← echo, List.take_append_drop]
    exact ⟨congrArg (fun l => Packet.mk .fn (2 :: l)) operands, rfl⟩
  · next f frame =>
    cases h
    exact ⟨congrArg (fun l => Packet.mk .fn (3 :: l)) (toList_of_bytesVec? frame), rfl⟩
  · next b bytes =>
    cases h
    exact ⟨congrArg (fun l => Packet.mk .fn (4 :: l)) (toList_of_bytesVec? bytes), rfl⟩
  · next l =>
    obtain ⟨small, row⟩ := of_ite_error_eq_ok h
    cases row
    exact ⟨congrArg (fun x => Packet.mk .fn [5, x]) (zero_append_levels small), rfl⟩

theorem isWordOf_of_decodeCTL {op : Byte} {i : Instr} (h : decodeCTL op = .ok i) : IsWordOf ⟨.ctl, [op]⟩ i := by
  unfold decodeCTL at h
  split at h
  case h_3 => cases h
  all_goals
    rename_i number
    obtain rfl := eq_ofNat_of_toNat number
    cases h
    exact ⟨rfl, rfl⟩

theorem decode_encode_sample (sclC sdaC : Bool) : decode (encode (.sample sclC sdaC)) = .ok (.sample sclC sdaC) := by
  cases sclC <;> cases sdaC <;> rfl

theorem decode_encode_buildReply (payload : Payload) (modeEcho : Byte) :
    decode (encode (.buildReply payload modeEcho)) = .ok (.buildReply payload modeEcho) := by
  have front : (payload.toList ++ [modeEcho]).take 12 = payload.toList := List.take_left' payload.length_toList
  have back : (payload.toList ++ [modeEcho]).drop 12 = [modeEcho] := List.drop_left' payload.length_toList
  change decodeFN 2 (payload.toList ++ [modeEcho]) = _
  simp [decodeFN, front, back, bytesVec?_toList]

theorem decode_encode_seqStamp (f : ReplyFrame) : decode (encode (.seqStamp f)) = .ok (.seqStamp f) := by
  change decodeFN 3 f.toList = _
  simp [decodeFN, bytesVec?_toList]

theorem decode_encode_checksum (b : Checked) : decode (encode (.checksum b)) = .ok (.checksum b) := by
  change decodeFN 4 b.toList = _
  simp [decodeFN, bytesVec?_toList]

/-- Settles O1: each format's word is its fields put together, so the decoder finds the fields again; a fallback row
is reached since its operand is none of the exact rows. -/
theorem decodeOfEncodeIsTheOperation : Obligations.DecodeOfEncodeIsTheOperation := by
  unfold Obligations.DecodeOfEncodeIsTheOperation
  intro i wf
  cases i with
  | addrOther addr rw =>
    have other : addr ≠ slaveAddr := bne_iff_ne.mp wf
    exact congrArg Except.ok ((decodeAB_append addr rw).trans (if_neg other))
  | modeFallback m =>
    simp only [Instr.wellFormed, Bool.and_eq_true, bne_iff_ne] at wf
    obtain ⟨⟨⟨h1, h3⟩, h4⟩, h5⟩ := wf
    exact congrArg Except.ok (decodeRQ0_other h1 h3 h4 h5)
  | evByteRx d first =>
    have data : (BitVec.ofBool first ++ d).extractLsb' 0 8 = d := BitVec.extractLsb'_append_eq_right
    have bit : (BitVec.ofBool first ++ d).getLsbD 8 = first := by
      rw [BitVec.getLsbD_append]; cases first <;> rfl
    refine decode_of_eventRow ((decodeEW_append 2 _).trans ?_)
    rw [data, bit]
    rfl
  | ewReservedStart low => exact decode_of_eventRow ((decodeEW_append 0 low).trans (if_neg (bne_iff_ne.mp wf)))
  | ewReservedStop low => exact decode_of_eventRow ((decodeEW_append 1 low).trans (if_neg (bne_iff_ne.mp wf)))
  | ewReservedReq low => exact decode_of_eventRow ((decodeEW_append 3 low).trans (if_neg (bne_iff_ne.mp wf)))
  | sqRead k => exact decode_encodeSQ (decodeSQ_read k)
  | sqWrite k => exact decode_encodeSQ (decodeSQ_write k)
  | buildReply payload modeEcho => exact decode_encode_buildReply payload modeEcho
  | seqStamp f => exact decode_encode_seqStamp f
  | checksum b => exact decode_encode_checksum b
  | sample sclC sdaC => exact decode_encode_sample sclC sdaC
  | _ => rfl

/-- Settles O2: by the format, then by its word: what the decoder reads are the word's fields, and the encoder puts
them together again. -/
theorem encodeOfDecodeIsThePacket : Obligations.EncodeOfDecodeIsThePacket := by
  unfold Obligations.EncodeOfDecodeIsThePacket
  rintro ⟨fmt, bytes⟩ i h
  cases fmt with
  | ab =>
    match bytes, h with
    | [b], h => cases h; exact isWordOf_decodeAB b
    | [], h | _ :: _ :: _, h => cases h
  | rq0 =>
    match bytes, h with
    | [m], h => cases h; exact isWordOf_decodeRQ0 m
    | [], h | _ :: _ :: _, h => cases h
  | ew =>
    match bytes, h with
    | [lo, hi], h =>
      obtain ⟨small, row⟩ := of_ite_error_eq_ok h
      cases row
      exact isWordOf_decodeEW small
    | [], h | [_], h | _ :: _ :: _ :: _, h => cases h
  | lc =>
    match bytes, h with
    | [c], h =>
      obtain ⟨small, row⟩ := of_ite_error_eq_ok h
      cases row
      exact isWordOf_decodeLC small
    | [], h | _ :: _ :: _, h => cases h
  | sq =>
    match bytes, h with
    | [c], h =>
      obtain ⟨small, row⟩ := of_ite_error_eq_ok h
      split at row
      · next code => cases row; exact isWordOf_of_decodeSQ small code
      · cases row
    | [], h | _ :: _ :: _, h => cases h
  | fn =>
    match bytes, h with
    | op :: args, h => exact isWordOf_of_decodeFN h
    | [], h => cases h
  | ctl =>
    match bytes, h with
    | [op], h => exact isWordOf_of_decodeCTL h
    | [], h | _ :: _ :: _, h => cases h

end Sys2Proof
end

section
/-! The rows that the codes of each format select: O3 to O6. -/

namespace Sys2Proof.Machine

/-- Settles O3: the six words by their tables. -/
theorem writtenWordsDecode : Obligations.WrittenWordsDecode := by
  unfold Obligations.WrittenWordsDecode
  decide

/-- Of the address bytes with the device's address there are two, by the direction bit (30_encoding.md R67). -/
theorem decodeAB_other {b : Byte} (notW : b ≠ 0x08) (notR : b ≠ 0x09) :
    decodeAB b = .addrOther (b.extractLsb' 1 7) (b.getLsbD 0) := by
  refine if_neg fun own => ?_
  have byte := addr_append_rw b
  rw [own] at byte
  cases hrw : b.getLsbD 0 with
  | false => exact notW (by rw [← byte, hrw]; rfl)
  | true => exact notR (by rw [← byte, hrw]; rfl)

theorem lookup_payload (m : Byte) :
    (lookup m).1 = romPayload (if m = 3 then 1 else if m = 4 then 2 else if m = 5 then 3 else 0) := rfl

theorem lookup_modeId (m : Byte) : (lookup m).2 = if m = 3 then 3 else if m = 4 then 4 else if m = 5 then 5 else 1 := by
  change modeId (selOf m) = _
  unfold selOf
  split_ifs <;> rfl

/-- Settles O4: an address byte is its two fields, a request byte is one of the exact rows or falls back, and `selOf`
chooses the entry behind it. -/
theorem addressAndModeBytesSelectTheirRow : Obligations.AddressAndModeBytesSelectTheirRow :=
  ⟨rfl, rfl, fun b notW notR => ⟨_, _, decodeAB_other notW notR, addr_append_rw b⟩, rfl, rfl, rfl, rfl,
    fun _ h1 h3 h4 h5 => decodeRQ0_other h1 h3 h4 h5, lookup_payload, lookup_modeId⟩

/-- Settles O5: the sixteen pairs of samples. -/
theorem lineCodesFollowTheEdges : Obligations.LineCodesFollowTheEdges := by
  unfold Obligations.LineCodesFollowTheEdges
  decide

/-- Settles O6: the operations and the reserved codes among the 64. -/
theorem sequencerCodesDecode : Obligations.SequencerCodesDecode := by
  unfold Obligations.SequencerCodesDecode
  exact ⟨rfl, by decide, rfl, by decide, by decide⟩

end Sys2Proof.Machine
end

section
/-! The step that an input selects, and the rows that no step runs: O7, O29. -/

namespace Sys2Proof.Machine

/-- Settles O7: the equation of the step for an input that decodes, which is well formed in any case (O2). -/
theorem stepRunsTheDecodedOperation : Obligations.StepRunsTheDecodedOperation :=
  fun _ _ _ _ hin hd _ => step_of_decode_ok hin hd

/-- Settles O29: the arm of each reserved row is its refusal. -/
theorem reservedCodesAreRefused : Obligations.ReservedCodesAreRefused :=
  fun _ => ⟨fun _ => rfl, fun _ => rfl, fun _ => rfl, rfl, rfl, rfl, rfl⟩

end Sys2Proof.Machine
end

section
/-! A request script in variant B (30_encoding.md R86, R87): O27. -/

namespace Sys2Proof.Machine

theorem runAll_cons_of_exec {i : Instr} {s t : State} (h : exec i s = .next t) (rest : List Instr) :
    runAll (i :: rest) s = runAll rest t := by
  rw [runAll, h]

/-- `s` within a request of which `k` bytes have come, with `r` in the request buffer. -/
def midRequest (r : RequestFrame) (k : Nat) (s : State) : State :=
  { s with req := r, rxHead := BitVec.ofNat 4 k, txHead := 0, phase := .receiving }

/-- A request buffer with some bytes stored one after the other from a cursor on (42_transaction_tracker.md R123). -/
def storeFrom : Nat → List Byte → RequestFrame → RequestFrame
  | _, [], r => r
  | k, x :: rest, r => storeFrom (k + 1) rest (r.setIfInBounds k x)

/-- Eight bytes stored from the first on and then the ninth are the whole request, whatever was there. -/
theorem set_eight_storeFrom (x0 x1 x2 x3 x4 x5 x6 x7 x8 : Byte) (r : RequestFrame) :
    (storeFrom 0 [x0, x1, x2, x3, x4, x5, x6, x7] r).set 8 x8 = #v[x0, x1, x2, x3, x4, x5, x6, x7, x8] := by
  apply Vector.ext
  intro i hi
  interval_cases i <;> simp [storeFrom]

/-- The selector of the stored request is the first of its bytes. -/
theorem storeFrom_selector (x0 x1 x2 x3 x4 x5 x6 x7 : Byte) (r : RequestFrame) :
    (storeFrom 0 [x0, x1, x2, x3, x4, x5, x6, x7] r)[0] = x0 := by
  simp [storeFrom]

theorem exec_evByteRx {s : State} (hv : s.cfg.variant = .bEvent) (d : Byte) (first : Bool) :
    exec (.evByteRx d first) s = answer (evByteRx d first s) :=
  onlyInB_eq hv _

theorem exec_evStop_next {s : State} (hv : s.cfg.variant = .bEvent) : exec .evStop s = .next (evStop s) :=
  (exec_evStop s).trans (onlyInB_eq hv _)

theorem exec_evStart_midRequest {s : State} (hv : s.cfg.variant = .bEvent) :
    exec .evStart s = .next (midRequest s.req 0 s) :=
  (exec_evStart s).trans (onlyInB_eq hv _)

/-- The event of a byte below the ninth; `first` makes no difference at cursor 0 (42_transaction_tracker.md R121 to
R123). -/
theorem exec_evByteRx_midRequest {s : State} {first : Bool} {k : Nat} (hv : s.cfg.variant = .bEvent) (below : k < 8)
    (atStart : first = true → k = 0) (d : Byte) (r : RequestFrame) :
    exec (.evByteRx d first) (midRequest r k s) = .next (midRequest (r.setIfInBounds k d) (k + 1) s) := by
  have cursor : cursorFor first (midRequest r k s) = BitVec.ofNat 4 k := by
    cases first with
    | false => rfl
    | true => rw [atStart rfl]; rfl
  have index : (BitVec.ofNat 4 k).toNat = k := by rw [BitVec.toNat_ofNat]; omega
  have lt : cursorFor first (midRequest r k s) < 8 := by rw [cursor, BitVec.lt_def, index]; exact below
  have next : BitVec.ofNat 4 k + 1 = BitVec.ofNat 4 (k + 1) := BitVec.eq_of_toNat_eq (by simp)
  have stored : r.set k d (by omega) = r.setIfInBounds k d := by
    apply Vector.ext
    intro i hi
    rw [Vector.getElem_set, Vector.getElem_setIfInBounds]
  rw [exec_evByteRx (s := midRequest r k s) hv, evByteRx_store d first _ lt, answer]
  simp only [cursor, index, next]
  rw [← stored]
  rfl

/-- Bytes that stay below the ninth are stored one after the other, by an event each. -/
theorem runAll_evByteRx_midRequest (bytes : List Byte) {s : State} {k : Nat} (hv : s.cfg.variant = .bEvent)
    (below : k + bytes.length ≤ 8) (r : RequestFrame) :
    runAll (bytes.map (.evByteRx · false)) (midRequest r k s) =
      .next (midRequest (storeFrom k bytes r) (k + bytes.length) s) := by
  induction bytes generalizing k r with
  | nil => rfl
  | cons x rest ih =>
    rw [List.length_cons, ← Nat.add_assoc, Nat.add_right_comm] at below ⊢
    have stored := exec_evByteRx_midRequest (first := false) (k := k) hv (by omega) (by simp) x r
    rw [List.map_cons, runAll_cons_of_exec stored, ih below, storeFrom]

/-- The event of the ninth byte: the request is complete and its reply is composed (42_transaction_tracker.md R128). -/
theorem exec_evByteRx_ninth_midRequest {s : State} (hv : s.cfg.variant = .bEvent) (d : Byte) (r : RequestFrame) :
    exec (.evByteRx d false) (midRequest r 8 s) = .next
      { s with req := r.set 8 d, rep := replyTo r[0] s.frameSeq, frameSeq := s.frameSeq + 1, rxHead := 9,
               txHead := 0, phase := .receiving } := by
  have selector : (r.set 8 d)[0] = r[0] := Vector.getElem_set_ne _ _ (by decide)
  rw [exec_evByteRx (s := midRequest r 8 s) hv, evByteRx_ninth d false _ rfl, compose_eq, answer]
  simp only [midRequest, selector]

/-- The events of a request script: the first byte alone forces its cursor (30_encoding.md R86, R87). -/
theorem scriptEvents_reqScript (x0 x1 x2 x3 x4 x5 x6 x7 x8 : Byte) :
    scriptEvents .no (reqScript #v[x0, x1, x2, x3, x4, x5, x6, x7, x8]) =
      .evStart :: .evByteRx x0 true ::
        ([x1, x2, x3, x4, x5, x6, x7].map (.evByteRx · false) ++ [.evByteRx x8 false, .evStop]) := rfl

/-- Settles O27: the start sets both cursors to 0, eight bytes are stored from there on, the ninth composes the reply to
the first of them, and the stop sets the cursors to 0 again. -/
theorem requestScriptComposesOneReply : Obligations.RequestScriptComposesOneReply := by
  unfold Obligations.RequestScriptComposesOneReply
  rintro s ⟨⟨l⟩, hl⟩ hv
  match l, hl with
  | [x0, x1, x2, x3, x4, x5, x6, x7, x8], _ =>
    have afterFirst : runAll ([x1, x2, x3, x4, x5, x6, x7].map (.evByteRx · false))
        (midRequest (s.req.setIfInBounds 0 x0) 1 s) =
        .next (midRequest (storeFrom 0 [x0, x1, x2, x3, x4, x5, x6, x7] s.req) 8 s) :=
      runAll_evByteRx_midRequest _ hv le_rfl _
    refine (congrArg (runAll · s) (scriptEvents_reqScript x0 x1 x2 x3 x4 x5 x6 x7 x8)).trans ?_
    rw [runAll_cons_of_exec (exec_evStart_midRequest hv),
      runAll_cons_of_exec (exec_evByteRx_midRequest hv (by decide) (fun _ => rfl) x0 _),
      runAll_append _ _ _ _ afterFirst,
      runAll_cons_of_exec (exec_evByteRx_ninth_midRequest hv x8 _), storeFrom_selector, set_eight_storeFrom]
    refine (runAll_cons_of_exec (exec_evStop_next ?_) []).trans rfl
    exact hv

end Sys2Proof.Machine
end

section
/-! The frame built from a payload, a mode echo and the counter (40_frame_codec.md R91 to R95): O13, O14. -/

namespace Sys2Proof.Machine

theorem exec_buildReply (p : Payload) (e : Byte) (s : State) :
    exec (.buildReply p e) s = .next { (buildReply p e s).2 with ret := .frame (buildReply p e s).1 } := rfl

theorem exec_compose (s : State) : exec .compose s = .next (compose s) := rfl

/-- The frame of payload `p`, mode echo `e` and counter value `q`, closed by its checksum (40_frame_codec.md R91). -/
def replyFrame (p : Payload) (e q : Byte) : ReplyFrame :=
  (p ++ (#v[e, q] : Vector Byte 2)) ++ (#v[checksum (p ++ (#v[e, q] : Vector Byte 2)).toList] : Vector Byte 1)

theorem buildReply_eq_replyFrame (p : Payload) (e : Byte) (s : State) :
    buildReply p e s = (replyFrame p e s.frameSeq, { s with frameSeq := s.frameSeq + 1 }) :=
  buildReply_eq p e s

theorem replyTo_eq_replyFrame (m q : Byte) : replyTo m q = replyFrame (lookup m).1 (lookup m).2 q := rfl

theorem replyFrame_payload (p : Payload) (e q : Byte) {i : Nat} (hi : i < 12) : (replyFrame p e q)[i] = p[i] := by
  unfold replyFrame
  rw [Vector.getElem_append_left (by omega), Vector.getElem_append_left hi]

theorem replyFrame_modeEcho (p : Payload) (e q : Byte) : (replyFrame p e q)[12] = e :=
  modeEchoOf_append p e q _

theorem replyFrame_frameSeq (p : Payload) (e q : Byte) : (replyFrame p e q)[13] = q := by
  unfold replyFrame
  rw [Vector.getElem_append_left (by omega), Vector.getElem_append_right _ (by omega)]
  rfl

theorem passesCheck_replyFrame (p : Payload) (e q : Byte) : passesCheck (replyFrame p e q) = true :=
  passesCheck_append _

theorem passesCheck_iff (f : ReplyFrame) : passesCheck f = true ↔ f[14] = checksum (checkedBytes f) :=
  beq_iff_eq

/-- Settles O13: the two effects of the stamp, in one expression. -/
theorem seqStampWritesThenIncrements : Obligations.SeqStampWritesThenIncrements :=
  fun _ _ => rfl

/-- Settles O14: the frame is `replyFrame`, read byte for byte; its last byte is what the check compares. -/
theorem buildReplyAssemblesTheFrame : Obligations.BuildReplyAssemblesTheFrame := fun p e s =>
  ⟨replyFrame p e s.frameSeq,
   by rw [exec_buildReply, buildReply_eq_replyFrame],
   fun i => replyFrame_payload p e _ i.isLt,
   replyFrame_modeEcho p e _,
   replyFrame_frameSeq p e _,
   (passesCheck_iff _).mp (passesCheck_replyFrame p e _)⟩

end Sys2Proof.Machine
end

section
/-! The checksum fold (40_frame_codec.md R96, R103): O11, O12. -/

namespace Sys2Proof.Machine

theorem checksum_append (l r : List Byte) : checksum (l ++ r) = r.foldl foldByte (checksum l) :=
  List.foldl_append

theorem checksum_concat (l : List Byte) (b : Byte) : checksum (l ++ [b]) = foldByte (checksum l) b :=
  checksum_append l [b]

/-- Settles O11: the last step of the fold is `foldByte`. -/
theorem checksumIsTheFold : Obligations.ChecksumIsTheFold :=
  ⟨rfl, checksum_concat, fun _ _ => rfl⟩

/-- After the changed byte the two accumulators differ, and no later step brings them together again. -/
theorem checksum_ne_of_byte_ne (l r : List Byte) {b c : Byte} (h : b ≠ c) :
    checksum (l ++ b :: r) ≠ checksum (l ++ c :: r) := by
  rw [checksum_append, checksum_append]
  exact fun same => h (foldByte_inj_right (foldl_foldByte_inj r same))

theorem checksum_set_ne {l : List Byte} {i : Nat} (hi : i < l.length) {c : Byte} (h : c ≠ l[i]) :
    checksum (l.set i c) ≠ checksum l := by
  have split : l = l.take i ++ l[i] :: l.drop (i + 1) := by
    rw [List.cons_getElem_drop_succ, List.take_append_drop]
  rw [List.set_eq_take_append_cons_drop, if_pos hi]
  conv_rhs => rw [split]
  exact checksum_ne_of_byte_ne _ _ h

/-- Bytes 0..13 alone are changed, so the checksum moves while byte 14 stays (40_frame_codec.md R103). -/
theorem passesCheck_set {f : ReplyFrame} (pass : passesCheck f = true) (i : Fin 14) {c : Byte} (h : c ≠ f[i.val]) :
    passesCheck (f.set i.val c) = false := by
  have last : (f.set i.val c)[14] = f[14] := Vector.getElem_set_ne _ _ (by omega)
  have range : checkedBytes (f.set i.val c) = (checkedBytes f).set i.val c := by
    rw [checkedBytes, checkedBytes, Vector.toList_set, List.take_set]
  have inRange : i.val < (checkedBytes f).length := by simp [checkedBytes]
  have byte : (checkedBytes f)[i.val] = f[i.val] := by simp [checkedBytes]
  rw [Bool.eq_false_iff, Ne, passesCheck_iff, last, range, (passesCheck_iff f).mp pass]
  exact (checksum_set_ne inRange (byte ▸ h)).symm

/-- Settles O12: `foldByte` is injective in either argument, so a bijection of the 256 bytes. -/
theorem checksumSeesEverySingleByte : Obligations.ChecksumSeesEverySingleByte :=
  ⟨fun _ => Finite.injective_iff_bijective.mp fun _ _ => foldByte_inj_left,
   fun _ => Finite.injective_iff_bijective.mp fun _ _ => foldByte_inj_right,
   fun l r _ _ h => checksum_ne_of_byte_ne l r h,
   fun _ i _ pass h => passesCheck_set pass i h⟩

end Sys2Proof.Machine
end

section
/-! The composed reply (40_frame_codec.md R101, R102): O15, O16. -/

namespace Sys2Proof.Machine

theorem compose_rep_eq (s : State) :
    (compose s).rep = replyFrame (lookup s.req[0]).1 (lookup s.req[0]).2 s.frameSeq := by
  rw [compose_eq, replyTo_eq_replyFrame]

/-- The counter is the last byte folded into the checksum. -/
theorem replyFrame_checksum (p : Payload) (e q : Byte) :
    (replyFrame p e q)[14] = foldByte (checksum (p.toList ++ [e])) q := by
  rw [← checksum_concat, List.append_assoc]
  unfold replyFrame
  rw [Vector.getElem_append_right _ (by omega), Vector.toList_append]
  rfl

/-- The four constants `K`: the checksum over the payload and the id of a mode (40_frame_codec.md R102). -/
theorem checksum_lookup (m : Byte) :
    checksum ((lookup m).1.toList ++ [(lookup m).2]) =
      if m = 3 then 0x49 else if m = 4 then 0x8F else if m = 5 then 0x26 else 0x0C := by
  unfold lookup selOf
  split_ifs <;> decide

/-- Settles O15: the step of the fold for byte 13, from the constant of the mode. -/
theorem checksumClosedFormPerMode : Obligations.ChecksumClosedFormPerMode := by
  unfold Obligations.ChecksumClosedFormPerMode
  intro s
  refine ⟨compose s, exec_compose s, ?_⟩
  simp only [compose_rep_eq]
  rw [replyFrame_checksum, checksum_lookup, foldByte]

/-- Below byte 13 the counter leaves no trace. -/
theorem replyFrame_eq_below_counter (p : Payload) (e q r : Byte) {i : Nat} (hi : i < 13) :
    (replyFrame p e q)[i] = (replyFrame p e r)[i] := by
  rcases Nat.lt_succ_iff_lt_or_eq.mp hi with payload | rfl
  · rw [replyFrame_payload p e q payload, replyFrame_payload p e r payload]
  · rw [replyFrame_modeEcho, replyFrame_modeEcho]

theorem replyFrame_checksum_ne (p : Payload) (e : Byte) {q r : Byte} (h : q ≠ r) :
    (replyFrame p e q)[14] ≠ (replyFrame p e r)[14] := by
  rw [replyFrame_checksum, replyFrame_checksum]
  exact fun same => h (foldByte_inj_right same)

/-- Settles O16: both replies are frames of one payload and one mode echo, with counter values that differ by one. -/
theorem sameRequestSamePayload : Obligations.SameRequestSamePayload := by
  unfold Obligations.SameRequestSamePayload
  intro s
  refine ⟨compose s, compose (compose s), exec_compose s, exec_compose (compose s), ?_⟩
  have counter : s.frameSeq + 1 ≠ s.frameSeq := by simp
  simp only [compose_rep_eq, compose_req, compose_frameSeq, replyFrame_frameSeq, true_and]
  exact ⟨fun i => replyFrame_eq_below_counter _ _ _ _ i.isLt, replyFrame_checksum_ne _ _ counter,
    passesCheck_replyFrame _ _ _, passesCheck_replyFrame _ _ _⟩

end Sys2Proof.Machine
end

section
/-! The mode table: its four entries in `ROM`, `LOOKUP`, and the rows of request byte 0 (41_mode_table.md R105 to R111):
O17, O18, O19. -/

namespace Sys2Proof.Machine

/-! ### The entries and their place in `ROM` -/

theorem romPayload_normal : romPayload 0 = #v[0xFF, 0xFF, 0, 0, 0, 0, 0, 0, 0, 0, 0, 0] := by decide

/-- The ASCII text "Handrad 0001". -/
theorem romPayload_identify :
    romPayload 1 = #v[0x48, 0x61, 0x6E, 0x64, 0x72, 0x61, 0x64, 0x20, 0x30, 0x30, 0x30, 0x31] := by decide

theorem romPayload_challenge :
    romPayload 2 = #v[0x3B, 0x59, 0xE8, 0x2A, 0xE9, 0xB1, 0xBE, 0xD8, 0, 0, 0, 0] := by decide

/-- The ASCII text "ABCD12345678". -/
theorem romPayload_serial :
    romPayload 3 = #v[0x41, 0x42, 0x43, 0x44, 0x31, 0x32, 0x33, 0x34, 0x35, 0x36, 0x37, 0x38] := by decide

theorem romPayload_getElem (sel : Fin 4) {i : Nat} (hi : i < 12) :
    (romPayload sel)[i] = rom[12 * sel.val + i] :=
  Vector.getElem_ofFn hi

theorem memRead_rom {i : Nat} (hi : i < 48) (s : State) : memRead .rom i s = .ok rom[i] :=
  dif_pos hi

/-- Settles O17: the bytes of each entry, and a read inside the 48 bytes of `ROM` as a byte of the entry there. -/
theorem romHoldsTheFourPayloads : Obligations.RomHoldsTheFourPayloads := by
  refine ⟨congrArg Vector.toList romPayload_normal, congrArg Vector.toList romPayload_identify,
    congrArg Vector.toList romPayload_challenge, congrArg Vector.toList romPayload_serial,
    rfl, rfl, rfl, rfl, fun s sel i => ?_⟩
  rw [memRead_rom (by omega), romPayload_getElem sel i.isLt]

/-! ### `LOOKUP` -/

theorem exec_lookup (m : Byte) (s : State) : exec (.lookup m) s = .next (returnEntry (lookup m) s) := rfl

theorem lookup_eq (m : Byte) :
    lookup m =
      if m = 3 then (romPayload 1, 3) else if m = 4 then (romPayload 2, 4)
      else if m = 5 then (romPayload 3, 5) else (romPayload 0, 1) := by
  unfold lookup selOf
  split_ifs <;> rfl

/-- Settles O18: only the return port is written, with the pair `lookup` chooses by the three exact mode bytes. -/
theorem lookupSelectsAnEntry : Obligations.LookupSelectsAnEntry := by
  intro m s
  rw [exec_lookup, lookup_eq]
  split_ifs <;> rfl

/-! ### The five rows of request byte 0 -/

theorem exec_modeNormal (s : State) : exec .modeNormal s = .next (returnEntry (entry 0) s) := rfl

theorem exec_modeIdentify (s : State) : exec .modeIdentify s = .next (returnEntry (entry 1) s) := rfl

theorem exec_modeChallenge (s : State) : exec .modeChallenge s = .next (returnEntry (entry 2) s) := rfl

theorem exec_modeSerial (s : State) : exec .modeSerial s = .next (returnEntry (entry 3) s) := rfl

/-- The fallback does not look at its byte. -/
theorem exec_modeFallback (m : Byte) (s : State) : exec (.modeFallback m) s = .next (returnEntry (entry 0) s) := rfl

theorem returnEntry_entry (sel : Fin 4) (s : State) :
    returnEntry (entry sel) s = { s with ret := .selected (romPayload sel) (modeId sel) } := rfl

/-- Settles O19: each row returns its entry of the table, whose payload is written out in `ROM`. -/
theorem modeRowsReturnTheirEntry : Obligations.ModeRowsReturnTheirEntry := by
  intro s
  refine ⟨?normal, ?identify, ?challenge, ?serial, fun m => ?fallback⟩
  case normal => rw [exec_modeNormal, returnEntry_entry, romPayload_normal]; rfl
  case identify => rw [exec_modeIdentify, returnEntry_entry, romPayload_identify]; rfl
  case challenge => rw [exec_modeChallenge, returnEntry_entry, romPayload_challenge]; rfl
  case serial => rw [exec_modeSerial, returnEntry_entry, romPayload_serial]; rfl
  case fallback => rw [exec_modeFallback, returnEntry_entry, romPayload_normal]; rfl

end Sys2Proof.Machine
end

section
/-! The Transaction Tracker: its four events and `COMPOSE` (42_transaction_tracker.md R119 to R131): O20 to O26. -/

namespace Sys2Proof.Machine

/-! ### Start and stop conditions -/

theorem exec_lcStart (s : State) : exec .lcStart s = .next (lcStart s) := rfl

theorem exec_lcStop (s : State) : exec .lcStop s = .next (lcStop s) := rfl

theorem emitInB_of_bEvent {s : State} (hv : s.cfg.variant = .bEvent) (event : State → State) :
    emitInB event s = event s := by
  unfold emitInB; rw [hv]

theorem emitInB_of_aPolled {s : State} (hv : s.cfg.variant = .aPolled) (event : State → State) :
    emitInB event s = s := by
  unfold emitInB; rw [hv]

theorem exec_evStart_next {s : State} (hv : s.cfg.variant = .bEvent) : exec .evStart s = .next (evStart s) :=
  (exec_evStart s).trans (onlyInB_eq hv _)

/-- Settles O20: the two line codes set the engine and emit the event, which variant A ignores. -/
theorem startAndStopResetEngineAndCursors : Obligations.StartAndStopResetEngineAndCursors := by
  unfold Obligations.StartAndStopResetEngineAndCursors
  refine fun s => ⟨fun hv => ⟨exec_evStart_next hv, exec_evStop_next hv, ?_, ?_⟩, fun hv => ⟨?_, ?_⟩⟩
  · rw [exec_lcStart, lcStart, emitInB_of_bEvent (by exact hv), evStart]
  · rw [exec_lcStop, lcStop, emitInB_of_bEvent (by exact hv), evStop]
  · rw [exec_lcStart, lcStart, emitInB_of_aPolled (by exact hv)]
  · rw [exec_lcStop, lcStop, emitInB_of_aPolled (by exact hv)]

/-! ### Received bytes -/

/-- A byte that meets the cursor `r` below 8 is stored there (42_transaction_tracker.md R123). -/
theorem exec_evByteRx_of_cursor {s : State} {first : Bool} (hv : s.cfg.variant = .bEvent) (d : Byte) (r : Fin 8)
    (cursor : cursorFor first s = BitVec.ofNat 4 r.val) :
    exec (.evByteRx d first) s = .next
      { s with req := s.req.set r.val d, rxHead := BitVec.ofNat 4 (r.val + 1), phase := .receiving } := by
  have index : (BitVec.ofNat 4 r.val).toNat = r.val := by rw [BitVec.toNat_ofNat]; omega
  have below : cursorFor first s < 8 := by rw [cursor, BitVec.lt_def, index]; exact r.isLt
  have next : BitVec.ofNat 4 r.val + 1 = BitVec.ofNat 4 (r.val + 1) := BitVec.eq_of_toNat_eq (by simp)
  rw [exec_evByteRx hv, evByteRx_store d first s below, answer]
  simp only [cursor, index, next]

/-- The memory does not see the receive cursor and the phase. -/
theorem memRead_rxHead_phase (space : Space) (i : Nat) (s : State) (c : BitVec 4) (p : Phase) :
    memRead space i { s with rxHead := c, phase := p } = memRead space i s := by
  cases space <;> rfl

/-- Settles O21: the store is one write of `REQ`, so the other bytes of memory stay (O56). -/
theorem receivedByteIsStoredAtTheCursor : Obligations.ReceivedByteIsStoredAtTheCursor := by
  unfold Obligations.ReceivedByteIsStoredAtTheCursor
  intro s d first r hv arm
  have cursor : cursorFor first s = BitVec.ofNat 4 r.val := by
    rcases arm with ⟨rfl, rfl⟩ | ⟨rfl, atCursor⟩
    · rfl
    · exact atCursor
  have written : memWrite .req r.val d
      { s with rxHead := BitVec.ofNat 4 (r.val + 1), phase := .receiving } = .ok
        { s with req := s.req.set r.val d, rxHead := BitVec.ofNat 4 (r.val + 1), phase := .receiving } :=
    dif_pos (by omega)
  exact ⟨_, exec_evByteRx_of_cursor hv d r cursor, rfl, memRead_memWrite_same written,
    fun space i ne => (memRead_memWrite_other written ne).trans (memRead_rxHead_phase space i s _ _)⟩

/-- Settles O22: the reply is composed from the stored request, whose first byte the ninth leaves. -/
theorem ninthByteComposes : Obligations.NinthByteComposes := by
  unfold Obligations.NinthByteComposes
  intro s d hv h
  have selector : (s.req.set 8 d)[0] = s.req[0] := Vector.getElem_set_ne _ _ (by decide)
  rw [exec_evByteRx hv, evByteRx_ninth d false s h, compose_eq, answer]
  simp only [selector]

/-- Settles O23: the overflow arm of the event. -/
theorem tenthByteIsRequestOverflow : Obligations.TenthByteIsRequestOverflow := by
  unfold Obligations.TenthByteIsRequestOverflow
  intro s d hv h
  rw [exec_evByteRx hv, evByteRx_tenth d false s h, answer]

/-- Settles O26: the operation is `compose` and no more. -/
theorem composeWritesTheReply : Obligations.ComposeWritesTheReply := by
  unfold Obligations.ComposeWritesTheReply
  intro s
  rw [exec_compose, compose_eq]

/-! ### Requested bytes -/

theorem exec_evByteReq_of_cursor {s : State} (hv : s.cfg.variant = .bEvent) (k : Fin 15)
    (cursor : s.txHead = BitVec.ofNat 4 k.val) :
    exec .evByteReq s = .next
      { s with txHead := BitVec.ofNat 4 (k.val + 1), phase := .replying, ret := .byte s.rep[k.val] } := by
  rw [exec_evByteReq, onlyInB_eq hv, evByteReq_load s k cursor, answer]

theorem exec_evByteReq_overflow {s : State} (hv : s.cfg.variant = .bEvent) (cursor : s.txHead = 15) :
    exec .evByteReq s = .next
      { s with txHead := 0, phase := .replying, txOvf := true, diag := s.diag ++ [.replyOverflow],
               draws := s.draws + 1, ret := .byte (Config.txOverflowByte s.draws) } := by
  rw [exec_evByteReq, onlyInB_eq hv, evByteReq_overflow s cursor, answer]

theorem bytesReturned_evStart {s t : State} (h : exec .evStart s = .next t) (rest : List Instr) :
    bytesReturned (.evStart :: rest) s = bytesReturned rest t := by
  simp only [bytesReturned, h]

theorem bytesReturned_evByteReq {s t : State} {b : Byte} (h : exec .evByteReq s = .next t) (ret : t.ret = .byte b)
    (rest : List Instr) : bytesReturned (.evByteReq :: rest) s = b :: bytesReturned rest t := by
  simp only [bytesReturned, h, ret]

/-- What a request below the sixteenth leaves for the requests after it. -/
theorem exec_evByteReq_completes {k : Nat} {s : State} (hv : s.cfg.variant = .bEvent) (below : k < 15)
    (cursor : s.txHead = BitVec.ofNat 4 k) :
    ∃ t, exec .evByteReq s = .next t ∧ t.cfg.variant = .bEvent ∧ t.txHead = BitVec.ofNat 4 (k + 1) ∧
      t.rep = s.rep ∧ t.ret = .byte s.rep[k] :=
  ⟨_, exec_evByteReq_of_cursor hv ⟨k, below⟩ cursor, hv, rfl, rfl, rfl⟩

/-- As many requests as `rep` has bytes left return those bytes in order (42_transaction_tracker.md R126). -/
theorem bytesReturned_replicate_evByteReq {n k : Nat} {s : State} (hv : s.cfg.variant = .bEvent)
    (cursor : s.txHead = BitVec.ofNat 4 k) (left : k + n = 15) :
    bytesReturned (List.replicate n .evByteReq) s = s.rep.toList.drop k := by
  induction n generalizing k s with
  | zero => rw [List.drop_eq_nil_of_le (by simp; omega)]; rfl
  | succ n ih =>
    obtain ⟨t, sent, variant, head, rep, ret⟩ := exec_evByteReq_completes hv (by omega) cursor
    have inRange : k < s.rep.toList.length := by rw [Vector.length_toList]; omega
    rw [List.replicate_succ, bytesReturned_evByteReq sent ret, ih variant head (by omega), rep,
      List.drop_eq_getElem_cons inRange, Vector.getElem_toList]

/-- Requests that stay below the sixteenth complete, move the cursor by one each and keep `rep`. -/
theorem runAll_replicate_evByteReq {n k : Nat} {s : State} (hv : s.cfg.variant = .bEvent)
    (cursor : s.txHead = BitVec.ofNat 4 k) (below : k + n ≤ 15) :
    ∃ t, runAll (List.replicate n .evByteReq) s = .next t ∧ t.txHead = BitVec.ofNat 4 (k + n) ∧ t.rep = s.rep := by
  induction n generalizing k s with
  | zero => exact ⟨s, rfl, cursor, rfl⟩
  | succ n ih =>
    obtain ⟨u, sent, variant, head, rep, -⟩ := exec_evByteReq_completes hv (by omega) cursor
    obtain ⟨t, run, last, kept⟩ := ih variant head (by omega)
    refine ⟨t, ?_, ?_, kept.trans rep⟩
    · rw [List.replicate_succ, runAll_cons_of_exec sent, run]
    · rw [last, Nat.add_right_comm, Nat.add_assoc]

/-- Settles O24: one request, and fifteen of them by induction from the cursor 0 that the start sets. -/
theorem requestedBytesAreTheReplyInOrder : Obligations.RequestedBytesAreTheReplyInOrder := by
  unfold Obligations.RequestedBytesAreTheReplyInOrder
  intro s hv
  have started := exec_evStart_next hv
  refine ⟨fun k => exec_evByteReq_of_cursor hv k, ?_, ?_⟩
  · rw [bytesReturned_evStart started, bytesReturned_replicate_evByteReq (k := 0) (by exact hv) rfl rfl,
      List.drop_zero, evStart_rep]
  · obtain ⟨t, run, head, rep⟩ := runAll_replicate_evByteReq (n := 15) (k := 0) (s := evStart s) hv rfl le_rfl
    exact ⟨t, (runAll_cons_of_exec started _).trans run, head, rep⟩

/-- Settles O25: the sixteenth request leaves cursor 0 and `rep`, from where fifteen more return `rep`. -/
theorem sixteenthRequestIsReplyOverflow : Obligations.SixteenthRequestIsReplyOverflow := by
  unfold Obligations.SixteenthRequestIsReplyOverflow
  intro s hv cursor
  have overflowed := exec_evByteReq_overflow hv cursor
  refine ⟨⟨_, overflowed⟩, ?_⟩
  rw [List.replicate_succ, bytesReturned_evByteReq overflowed rfl, List.tail_cons,
    bytesReturned_replicate_evByteReq (k := 0) (by exact hv) rfl rfl, List.drop_zero]

end Sys2Proof.Machine
end

section
/-! The steps of variant A's sequencer, each where it is enabled and where it waits (43_dispatch_variants.md R142 to
R146): O30 to O33. -/

namespace Sys2Proof.Machine

theorem exec_sqPoll {s : State} (hv : s.cfg.variant = .aPolled) : exec .sqPoll s = .next (sqPoll s) :=
  onlyInA_eq hv _

theorem exec_sqRead {s : State} (hv : s.cfg.variant = .aPolled) (k : Fin 9) :
    exec (.sqRead k) s = .next (sqRead k s) :=
  onlyInA_eq hv _

theorem exec_sqCompose {s : State} (hv : s.cfg.variant = .aPolled) : exec .sqCompose s = .next (sqCompose s) :=
  onlyInA_eq hv _

theorem exec_sqWrite {s : State} (hv : s.cfg.variant = .aPolled) (k : Fin 15) :
    exec (.sqWrite k) s = .next (sqWrite k s) :=
  onlyInA_eq hv _

theorem sqPoll_of_enough {s : State} (hs : s.seqState = .poll) (enough : s.cfg.pollThreshold ≤ s.rxq.length) :
    sqPoll s = { s with seqState := .read 0 } :=
  if_pos ⟨hs, enough⟩

theorem sqPoll_of_wait {s : State} (wait : s.seqState ≠ .poll ∨ s.rxq.length < s.cfg.pollThreshold) :
    sqPoll s = s := by
  refine if_neg fun ⟨hs, enough⟩ => ?_
  rcases wait with elsewhere | few
  · exact elsewhere hs
  · exact absurd enough (Nat.not_le.mpr few)

theorem sqRead_of_cons {s : State} {k : Fin 9} {d : Byte} {rest : List Byte} (hs : s.seqState = .read k)
    (hq : s.rxq = d :: rest) :
    sqRead k s = { s with req := s.req.set k.val d, rxq := rest, seqState := seqAfterRead k } := by
  simp only [sqRead, if_pos hs, hq]

theorem sqRead_of_wait {s : State} {k : Fin 9} (wait : s.seqState ≠ .read k ∨ s.rxq = []) : sqRead k s = s := by
  rcases wait with elsewhere | empty
  · exact if_neg elsewhere
  · simp only [sqRead, empty, ite_self]

theorem sqCompose_of_enabled {s : State} (hs : s.seqState = .compose) :
    sqCompose s =
      { s with rep := replyTo s.req[0] s.frameSeq, frameSeq := s.frameSeq + 1, seqState := .write 0 } := by
  rw [sqCompose, if_pos hs, compose_eq]

theorem txqHasRoom_iff (s : State) : txqHasRoom s = true ↔ s.txq.length < s.cfg.txqDepth :=
  decide_eq_true_iff

theorem sqWrite_of_room {s : State} {k : Fin 15} (hs : s.seqState = .write k)
    (room : s.txq.length < s.cfg.txqDepth) :
    sqWrite k s = { s with txq := s.txq ++ [s.rep[k.val]], seqState := seqAfterWrite k } :=
  if_pos ⟨hs, (txqHasRoom_iff s).mpr room⟩

theorem sqWrite_of_wait {s : State} {k : Fin 15} (wait : s.seqState ≠ .write k ∨ s.cfg.txqDepth ≤ s.txq.length) :
    sqWrite k s = s := by
  refine if_neg fun ⟨hs, room⟩ => ?_
  rcases wait with elsewhere | full
  · exact elsewhere hs
  · exact absurd ((txqHasRoom_iff s).mp room) (Nat.not_lt.mpr full)

/-- 43_dispatch_variants.md R144 as the spec writes it, with the last index first. -/
theorem seqAfterRead_eq (k : Fin 9) :
    seqAfterRead k = if h : k.val = 8 then .compose else .read ⟨k.val + 1, by omega⟩ := by
  unfold seqAfterRead
  by_cases last : k.val = 8
  · rw [dif_neg (by omega), dif_pos last]
  · rw [dif_pos (by omega), dif_neg last]

/-- 43_dispatch_variants.md R146 as the spec writes it, with the last index first. -/
theorem seqAfterWrite_eq (k : Fin 15) :
    seqAfterWrite k = if h : k.val = 14 then .poll else .write ⟨k.val + 1, by omega⟩ := by
  unfold seqAfterWrite
  by_cases last : k.val = 14
  · rw [dif_neg (by omega), dif_pos last]
  · rw [dif_pos (by omega), dif_neg last]

/-- The memory does not see the receive queue and the sequencer. -/
theorem memRead_rxq_seqState (space : Space) (i : Nat) (s : State) (q : List Byte) (p : SeqState) :
    memRead space i { s with rxq := q, seqState := p } = memRead space i s := by
  cases space <;> rfl

/-- Settles O30: the two arms of the poll. -/
theorem pollLeavesWhenEnoughBytes : Obligations.PollLeavesWhenEnoughBytes := by
  unfold Obligations.PollLeavesWhenEnoughBytes
  intro s hv
  rw [exec_sqPoll hv]
  exact ⟨fun hs enough => congrArg _ (sqPoll_of_enough hs enough), fun wait => congrArg _ (sqPoll_of_wait wait)⟩

/-- Settles O31: the pop into `req` is one write of `REQ`, so the other bytes of memory stay (O56). -/
theorem readPopsIntoTheRequest : Obligations.ReadPopsIntoTheRequest := by
  unfold Obligations.ReadPopsIntoTheRequest
  intro s k hv
  rw [exec_sqRead hv]
  refine ⟨fun d rest hs hq => ?_, fun wait => congrArg _ (sqRead_of_wait wait)⟩
  rw [← seqAfterRead_eq, sqRead_of_cons hs hq]
  have written : memWrite .req k.val d { s with rxq := rest, seqState := seqAfterRead k } = .ok
      { s with req := s.req.set k.val d, rxq := rest, seqState := seqAfterRead k } := dif_pos k.isLt
  exact ⟨_, rfl, rfl, memRead_memWrite_same written,
    fun space i ne => (memRead_memWrite_other written ne).trans (memRead_rxq_seqState space i s _ _)⟩

/-- Settles O32: the step is `compose` with the move to the first write. -/
theorem sequencerComposes : Obligations.SequencerComposes := by
  unfold Obligations.SequencerComposes
  intro s hv
  rw [exec_sqCompose hv]
  exact ⟨fun hs => congrArg _ (sqCompose_of_enabled hs), fun elsewhere => congrArg _ (if_neg elsewhere)⟩

/-- Settles O33: the two arms of the write. -/
theorem writePushesTheReply : Obligations.WritePushesTheReply := by
  unfold Obligations.WritePushesTheReply
  intro s k hv
  rw [exec_sqWrite hv, ← seqAfterWrite_eq]
  exact ⟨fun hs room => congrArg _ (sqWrite_of_room hs room), fun wait => congrArg _ (sqWrite_of_wait wait)⟩

end Sys2Proof.Machine
end

section
/-! A full cycle of the sequencer and the event handler over the same request (43_dispatch_variants.md R151, R155,
R156): O34. -/

namespace Sys2Proof.Machine

/-! ### The cycle of variant A -/

/-- Operations that lead from each of a row of states to the next one, run one after the other. -/
theorem runAll_map_finRange {n : Nat} {op : Fin n → Instr} {stage : Nat → State}
    (moves : ∀ k : Fin n, exec (op k) (stage k.val) = .next (stage (k.val + 1))) :
    runAll ((List.finRange n).map op) (stage 0) = .next (stage n) := by
  induction n generalizing stage with
  | zero => rfl
  | succ n ih =>
    rw [List.finRange_succ, List.map_cons, List.map_map]
    exact (runAll_cons_of_exec (moves 0) _).trans (ih (stage := fun k => stage (k + 1)) fun k => moves k.succ)

/-- Where the sequencer is after `k` reads. -/
def seqAfterReads (k : Nat) : SeqState := if h : k < 9 then .read ⟨k, h⟩ else .compose

/-- Where the sequencer is after `k` writes. -/
def seqAfterWrites (k : Nat) : SeqState := if h : k < 15 then .write ⟨k, h⟩ else .poll

theorem seqAfterReads_lt (k : Fin 9) : seqAfterReads k.val = .read k := dif_pos k.isLt

theorem seqAfterWrites_lt (k : Fin 15) : seqAfterWrites k.val = .write k := dif_pos k.isLt

theorem seqAfterReads_succ (k : Fin 9) : seqAfterReads (k.val + 1) = seqAfterRead k := by
  simp only [seqAfterReads, seqAfterRead, ← Nat.lt_sub_iff_add_lt]

theorem seqAfterWrites_succ (k : Fin 15) : seqAfterWrites (k.val + 1) = seqAfterWrite k := by
  simp only [seqAfterWrites, seqAfterWrite, ← Nat.lt_sub_iff_add_lt]

/-- The request buffer `r` with its first `k` bytes those of `b`. -/
def firstBytes (b : RequestFrame) (k : Nat) (r : RequestFrame) : RequestFrame :=
  Vector.ofFn fun i => if i.val < k then b[i.val] else r[i.val]

theorem firstBytes_zero (b r : RequestFrame) : firstBytes b 0 r = r := by
  apply Vector.ext
  intro i hi
  simp [firstBytes]

theorem firstBytes_all (b r : RequestFrame) : firstBytes b 9 r = b := by
  apply Vector.ext
  intro i hi
  simp [firstBytes]

theorem firstBytes_set (b r : RequestFrame) (k : Fin 9) :
    (firstBytes b k.val r).set k.val b[k.val] = firstBytes b (k.val + 1) r := by
  apply Vector.ext
  intro i hi
  by_cases here : k.val = i
  · simp [firstBytes, here]
  · have below : i < k.val ↔ i < k.val + 1 := by omega
    rw [Vector.getElem_set_ne _ _ here]
    simp only [firstBytes, Vector.getElem_ofFn, below]

/-- `s` with the first `k` bytes of the request `b` read and the others still queued. -/
def midReads (b : RequestFrame) (s : State) (k : Nat) : State :=
  { s with req := firstBytes b k s.req, rxq := b.toList.drop k, seqState := seqAfterReads k }

/-- `s` with the first `k` bytes of its reply, and nothing else, handed to `txq`. -/
def midWrites (s : State) (k : Nat) : State :=
  { s with txq := s.rep.toList.take k, seqState := seqAfterWrites k }

theorem exec_sqRead_midReads {s : State} (hv : s.cfg.variant = .aPolled) (b : RequestFrame) (k : Fin 9) :
    exec (.sqRead k) (midReads b s k.val) = .next (midReads b s (k.val + 1)) := by
  have oldest : b.toList.drop k.val = b[k.val] :: b.toList.drop (k.val + 1) := by
    rw [List.drop_eq_getElem_cons (by simp), Vector.getElem_toList]
  rw [exec_sqRead (s := midReads b s k.val) hv, sqRead_of_cons (seqAfterReads_lt k) oldest]
  simp only [midReads, firstBytes_set, seqAfterReads_succ]

theorem exec_sqWrite_midWrites {s : State} (hv : s.cfg.variant = .aPolled) (room : 15 ≤ s.cfg.txqDepth)
    (k : Fin 15) : exec (.sqWrite k) (midWrites s k.val) = .next (midWrites s (k.val + 1)) := by
  have short : (midWrites s k.val).txq.length < s.cfg.txqDepth := by
    simp only [midWrites, List.length_take, Vector.length_toList]; omega
  have longer : s.rep.toList.take (k.val + 1) = s.rep.toList.take k.val ++ [s.rep[k.val]] := by
    rw [List.take_succ_eq_append_getElem (by simp), Vector.getElem_toList]
  rw [exec_sqWrite (s := midWrites s k.val) hv, sqWrite_of_room (seqAfterWrites_lt k) short]
  simp only [midWrites, longer, seqAfterWrites_succ]

/-- The poll that finds a whole request leads to the first read (43_dispatch_variants.md R143). -/
theorem exec_sqPoll_midReads {s : State} {b : RequestFrame} (hv : s.cfg.variant = .aPolled)
    (threshold : s.cfg.pollThreshold ≤ 9) (hs : s.seqState = .poll) (hq : s.rxq = b.toList) :
    exec .sqPoll s = .next (midReads b s 0) := by
  have enough : s.cfg.pollThreshold ≤ s.rxq.length := by rw [hq, Vector.length_toList]; exact threshold
  rw [exec_sqPoll hv, sqPoll_of_enough hs enough, midReads, firstBytes_zero, List.drop_zero, ← hq]
  rfl

/-- `s` with the request `b` taken from its queue and the reply to it composed (43_dispatch_variants.md R145). -/
def answered (b : RequestFrame) (s : State) : State :=
  { s with req := b, rep := replyTo b[0] s.frameSeq, frameSeq := s.frameSeq + 1, rxq := [] }

theorem exec_sqCompose_midReads {s : State} (hv : s.cfg.variant = .aPolled) (empty : s.txq = [])
    (b : RequestFrame) : exec .sqCompose (midReads b s 9) = .next (midWrites (answered b s) 0) := by
  have taken : b.toList.drop 9 = [] := List.drop_eq_nil_of_le (by simp)
  rw [exec_sqCompose (s := midReads b s 9) hv, sqCompose_of_enabled rfl]
  simp only [midReads, midWrites, answered, firstBytes_all, taken, List.take_zero, ← empty]
  rfl

/-- One cycle of the sequencer over a queued request (43_dispatch_variants.md R151). -/
theorem runAll_sequencerCycle {s : State} {b : RequestFrame} (hv : s.cfg.variant = .aPolled)
    (threshold : s.cfg.pollThreshold ≤ 9) (room : 15 ≤ s.cfg.txqDepth) (hs : s.seqState = .poll)
    (hq : s.rxq = b.toList) (empty : s.txq = []) :
    runAll sequencerCycle s = .next
      { answered b s with txq := (replyTo b[0] s.frameSeq).toList, seqState := .poll } := by
  have reads := runAll_map_finRange (exec_sqRead_midReads hv b)
  have writes := runAll_map_finRange (exec_sqWrite_midWrites (s := answered b s) hv room)
  have whole : (answered b s).rep.toList.take 15 = (replyTo b[0] s.frameSeq).toList :=
    List.take_of_length_le (by simp)
  calc runAll sequencerCycle s
      = runAll ((List.finRange 9).map .sqRead ++ (.sqCompose :: (List.finRange 15).map .sqWrite))
          (midReads b s 0) := by
        rw [sequencerCycle, List.append_assoc, List.append_assoc]
        exact runAll_cons_of_exec (exec_sqPoll_midReads hv threshold hs hq) _
    _ = runAll (.sqCompose :: (List.finRange 15).map .sqWrite) (midReads b s 9) := runAll_append _ _ _ _ reads
    _ = runAll ((List.finRange 15).map .sqWrite) (midWrites (answered b s) 0) :=
        runAll_cons_of_exec (exec_sqCompose_midReads hv empty b) _
    _ = .next (midWrites (answered b s) 15) := writes
    _ = _ := by rw [midWrites, whole]; rfl

/-! ### The bytes variant B returns -/

/-- The bytes returned by a run in two parts, of which the first completes. -/
theorem bytesReturned_append (l₁ l₂ : List Instr) {s t : State} (h : runAll l₁ s = .next t) :
    bytesReturned (l₁ ++ l₂) s = bytesReturned l₁ s ++ bytesReturned l₂ t := by
  induction l₁ generalizing s with
  | nil => cases h; rfl
  | cons i l ih =>
    simp only [List.cons_append, runAll, bytesReturned] at *
    cases he : exec i s with
    | next u =>
      rw [he] at h
      simp only [ih h]
      split <;> rfl
    | fault e => rw [he] at h; cases h
    | refused e => rw [he] at h; cases h

theorem bytesReturned_evStop (s : State) : bytesReturned [.evStop] s = [] := by
  unfold bytesReturned
  cases exec .evStop s <;> rfl

/-- The events of `READ15`: the acknowledged and the last byte alike are requested by an event each. -/
theorem scriptEvents_read15Script :
    scriptEvents .no read15Script = (.evStart :: List.replicate 15 .evByteReq) ++ [.evStop] := rfl

/-- `READ15` returns the reply in order (42_transaction_tracker.md R126). -/
theorem bytesReturned_read15Script {s : State} (hv : s.cfg.variant = .bEvent) :
    bytesReturned (scriptEvents .no read15Script) s = s.rep.toList := by
  obtain ⟨_, inOrder, t, run, _⟩ := requestedBytesAreTheReplyInOrder s hv
  rw [scriptEvents_read15Script, bytesReturned_append _ _ run, inOrder, bytesReturned_evStop, List.append_nil]

/-- Settles O34: both runs end with the request stored and the reply to its first byte at the common counter in `rep`;
the cycle hands that reply to `txq`, and `READ15` returns it. -/
theorem theTwoVariantsSendTheSameBytes : Obligations.TheTwoVariantsSendTheSameBytes := by
  unfold Obligations.TheTwoVariantsSendTheSameBytes
  intro a b req hA hB counter ⟨_, _, _, threshold⟩ room hs hq empty
  refine ⟨_, _, runAll_sequencerCycle hA threshold room hs hq empty, requestScriptComposesOneReply b req hB,
    rfl, ?_, ?_, rfl, rfl, ?_⟩
  · exact congrArg (replyTo req[0]) counter
  · exact congrArg (· + 1) counter
  · rw [bytesReturned_read15Script (by exact hB), counter]

end Sys2Proof.Machine
end

section
/-! The engine's invariant, kept by every operation the device runs by itself (44_byte_engine.md R201, R202): O50, and
what follows from it: O43, O44. -/

namespace Sys2Proof.Machine

/-! ### Operations above the engine -/

/-- `t` has the byte engine of `s`, and expects the same of the next sample. -/
abbrev KeepsEngine (s t : State) : Prop := SameEngine s t ∧ t.expect = s.expect

theorem keepsEngine_refl (s : State) : KeepsEngine s s :=
  ⟨⟨rfl, rfl, rfl, rfl, rfl, rfl, rfl, rfl, rfl, rfl, rfl⟩, rfl⟩

theorem engineInv_of_keepsEngine {s t : State} (k : KeepsEngine s t) (h : s.EngineInv) : t.EngineInv := by
  obtain ⟨same, expects⟩ := k
  have ⟨be, _, _, _, _, _, sclQ, sdaQ, _⟩ := same
  refine ⟨driveInv_of_same same h.1, ?_⟩
  simpa only [State.ExpectPlace, be, sclQ, sdaQ, expects] using h.2

theorem evByteRx_keepsEngine {d : Byte} {first : Bool} {s t : State} (e : evByteRx d first s = .ok t) :
    KeepsEngine s t := by
  refine ⟨evByteRx_same e, ?_⟩
  rcases evByteRx_cases d first s with ⟨_, arm⟩ | ⟨_, arm⟩ | ⟨_, arm⟩ | ⟨_, arm⟩ <;> rw [arm] at e <;> cases e
  all_goals rfl

theorem evByteReq_keepsEngine (s : State) : KeepsEngine s (evByteReq s).2 := by
  refine ⟨evByteReq_same s, ?_⟩
  rcases evByteReq_cases s with ⟨_, arm⟩ | ⟨_, arm⟩ <;> rw [arm]

theorem compose_keepsEngine (s : State) : KeepsEngine s (compose s) := by
  rw [compose_eq]; exact keepsEngine_refl s

theorem sqPoll_keepsEngine (s : State) : KeepsEngine s (sqPoll s) := by
  unfold sqPoll; split <;> exact keepsEngine_refl s

theorem sqRead_keepsEngine (k : Fin 9) (s : State) : KeepsEngine s (sqRead k s) := by
  unfold sqRead
  split
  · split <;> exact keepsEngine_refl s
  · exact keepsEngine_refl s

theorem sqCompose_keepsEngine (s : State) : KeepsEngine s (sqCompose s) := by
  unfold sqCompose
  split
  · exact compose_keepsEngine s
  · exact keepsEngine_refl s

theorem sqWrite_keepsEngine (k : Fin 15) (s : State) : KeepsEngine s (sqWrite k s) := by
  unfold sqWrite; split <;> exact keepsEngine_refl s

/-- Of the operations the device runs by itself only a sample, the end of a hold and `RESET` touch the engine. -/
theorem exec_keepsEngine {i : Instr} {s t : State} (own : onlyInsideSample i = false)
    (notSample : ∀ sclC sdaC, i ≠ .sample sclC sdaC) (notResume : i ≠ .beResume) (notReset : i ≠ .reset)
    (e : exec i s = .next t) : KeepsEngine s t := by
  cases i with
  | sample sclC sdaC => exact absurd rfl (notSample sclC sdaC)
  | beResume => exact absurd rfl notResume
  | reset => exact absurd rfl notReset
  | modeNormal | modeIdentify | modeChallenge | modeSerial | modeFallback | lookup | buildReply | seqStamp
  | checksum => cases e; exact keepsEngine_refl s
  | compose => cases e; exact compose_keepsEngine s
  | evStart =>
    obtain ⟨-, ⟨⟩⟩ := onlyInB_next ((exec_evStart s).symm.trans e)
    exact keepsEngine_refl s
  | evStop =>
    obtain ⟨-, ⟨⟩⟩ := onlyInB_next ((exec_evStop s).symm.trans e)
    exact keepsEngine_refl s
  | evByteRx d first => exact evByteRx_keepsEngine (onlyInB_next e).2
  | evByteReq =>
    obtain ⟨-, ⟨⟩⟩ := onlyInB_next ((exec_evByteReq s).symm.trans e)
    exact evByteReq_keepsEngine s
  | sqPoll => obtain ⟨-, rfl⟩ := onlyInA_next e; exact sqPoll_keepsEngine s
  | sqRead k => obtain ⟨-, rfl⟩ := onlyInA_next e; exact sqRead_keepsEngine k s
  | sqCompose => obtain ⟨-, rfl⟩ := onlyInA_next e; exact sqCompose_keepsEngine s
  | sqWrite k => obtain ⟨-, rfl⟩ := onlyInA_next e; exact sqWrite_keepsEngine k s
  | ewReservedStart | ewReservedStop | ewReservedReq => cases e
  | _ => cases own

/-! ### The operations that touch the engine -/

/-- A sample keeps the invariant on what the engine drives, by the kind of edge it is. -/
theorem exec_sample_driveInv {sclC sdaC : Bool} {s t : State} (h : s.DriveInv)
    (e : exec (.sample sclC sdaC) s = .next t) : t.DriveInv := by
  rcases exec_sample_cases (sound_of_exec_sample e) with
    ⟨sclStays, sdaStays, nop⟩ | ⟨low, high, sdaStays, rise⟩ | ⟨high, low, sdaStays, fall⟩ |
    ⟨wasHigh, isHigh, -, -, start⟩ | ⟨wasHigh, isHigh, -, -, stop⟩
  · rw [nop] at e
    cases e
    cases q : s.sclQ with
    | false => exact sampled_low_driveInv h q (sclStays.symm.trans q)
    | true => exact sampled_high_driveInv h q (sclStays.symm.trans q) (sdaStays.resolve_left (by simp [q]))
  · rw [rise] at e; cases e; exact lcRise_driveInv h low high sdaStays
  · exact lcFall_driveInv h high low sdaStays (answer_next (fall.symm.trans e))
  · rw [start] at e; cases e; exact lcStart_driveInv h wasHigh isHigh
  · rw [stop] at e; cases e; exact lcStop_driveInv h wasHigh isHigh

/-- The next sample is bound only where this one saw SCL low (44_byte_engine.md R200 W2, W5). -/
theorem expectAfter_eq_anything {sclC : Bool} (sdaC : Bool) {s : State} (high : (sclC && s.sclOut) = true) :
    expectAfter sclC sdaC s = .anything := by
  simp [expectAfter, wiredAnd, high]

/-- No sample waits for an idle bus: that is for `RESET` (70_reset_and_hazards.md R238). -/
theorem expectAfter_ne_idleBus (sclC sdaC : Bool) (s : State) : expectAfter sclC sdaC s ≠ .idleBus := by
  unfold expectAfter
  dsimp only
  split_ifs <;> nofun

theorem exec_sample_expectPlace {sclC sdaC : Bool} {s t : State} (e : exec (.sample sclC sdaC) s = .next t) :
    t.ExpectPlace := by
  obtain ⟨expects, sclQ, -⟩ := exec_sample_notes e
  have low (bound : t.expect ≠ .anything) : t.sclQ = false := by
    rw [sclQ, Bool.eq_false_iff]
    exact fun high => bound (expects.trans (expectAfter_eq_anything sdaC high))
  exact ⟨fun idle => absurd (expects.symm.trans idle) (expectAfter_ne_idleBus sclC sdaC s),
    fun bound => low (by simp [bound]), fun _ bound => low (by simp [bound])⟩

/-- The end of a hold writes no line and leaves the state of the engine. -/
theorem beResume_keeps_lines (s : State) :
    (beResume s).be = s.be ∧ (beResume s).sclQ = s.sclQ ∧ (beResume s).sdaQ = s.sdaQ ∧
    (beResume s).expect = s.expect := by
  have same : s.be = s.be ∧ s.sclQ = s.sclQ ∧ s.sdaQ = s.sdaQ ∧ s.expect = s.expect := ⟨rfl, rfl, rfl, rfl⟩
  unfold beResume
  split
  · split <;> exact same
  · split <;> exact same
  · exact same
  · exact same

theorem beResume_engineInv {s : State} (h : s.EngineInv) : (beResume s).EngineInv := by
  obtain ⟨be, sclQ, sdaQ, expects⟩ := beResume_keeps_lines s
  refine ⟨beResume_driveInv h.1, ?_⟩
  simpa only [State.ExpectPlace, be, sclQ, sdaQ, expects] using h.2

theorem resetState_engineInv (s : State) : (resetState s).EngineInv :=
  ⟨driveInv_idle rfl rfl rfl ⟨rfl, rfl, rfl⟩, fun _ => ⟨rfl, rfl, rfl⟩, nofun, nofun⟩

/-- Every operation the device runs by itself keeps the engine's invariant, in every state. -/
theorem exec_keeps_engineInv {i : Instr} {s t : State} (own : onlyInsideSample i = false) (h : s.EngineInv)
    (e : exec i s = .next t) : t.EngineInv := by
  cases i with
  | sample sclC sdaC => exact ⟨exec_sample_driveInv h.1 e, exec_sample_expectPlace e⟩
  | beResume => obtain ⟨-, rfl⟩ := onlyInA_next e; exact beResume_engineInv h
  | reset => cases e; exact resetState_engineInv s
  | _ => exact engineInv_of_keepsEngine (exec_keepsEngine own nofun nofun nofun e) h

/-- Settles O50: the machine's invariant is not needed beside the engine's. -/
theorem everyOwnStepKeepsTheEngineInvariant : Obligations.EveryOwnStepKeepsTheEngineInvariant :=
  fun _ _ _ own _ h e => exec_keeps_engineInv own h e

/-! ### What the invariant says of the lines -/

theorem decodeLC_lineCode_eq_lcStart {sclQ sdaQ scl sda : Bool} (h : decodeLC (lineCode sclQ sdaQ scl sda) = .lcStart) :
    sclQ = true ∧ sdaQ = true := by
  revert sclQ sdaQ scl sda; decide

theorem decodeLC_lineCode_eq_lcStop {sclQ sdaQ scl sda : Bool} (h : decodeLC (lineCode sclQ sdaQ scl sda) = .lcStop) :
    sda = true := by
  revert sclQ sdaQ scl sda; decide

/-- Settles O43: a start needs both lines high before, where the invariant has one of them low; a stop needs SDA high,
which the device pulls low. -/
theorem noConditionWhileSdaIsHeld : Obligations.NoConditionWhileSdaIsHeld := by
  unfold Obligations.NoConditionWhileSdaIsHeld
  rintro s sclC sdaC ⟨⟨-, -, -, seenLow⟩, -⟩ held
  refine ⟨fun start => ?_, fun stop => ?_⟩
  · obtain ⟨sclHigh, sdaHigh⟩ := decodeLC_lineCode_eq_lcStart start
    rcases seenLow held with low | low
    · rw [sclHigh] at low; cases low
    · rw [sdaHigh] at low; cases low
  · have sdaHigh := decodeLC_lineCode_eq_lcStop stop
    rw [held, Bool.and_false] at sdaHigh
    cases sdaHigh

/-- The three parts of a byte's clocks: its bits, the bit before the acknowledge, and the acknowledge. -/
theorem bitcnt_le_seven_or {b : BitVec 4} (h : b ≤ 9) : b ≤ 7 ∨ b = 8 ∨ b = 9 := by
  revert b; decide

/-- In `BE_ADDR` the device shows something only after the decision for its own address. -/
theorem addrClock_decided {s : State} (h : s.AddrClock) (shown : s.sdaOut = false ∨ s.firstPending = true) :
    (s.bitcnt = 8 ∨ s.bitcnt = 9) ∧ s.matched = true ∧ s.firstPending = !s.rw := by
  obtain ⟨range, before, decided, acknowledged⟩ := h
  have notBefore (p : s.bitcnt ≤ 7 ∨ (s.bitcnt = 8 ∧ s.sclQ = true)) : False := by
    obtain ⟨-, notFirst, released⟩ := before p
    simp [notFirst, released] at shown
  rcases bitcnt_le_seven_or range with bits | at8 | at9
  · exact (notBefore (.inl bits)).elim
  · have low : s.sclQ = false := Bool.eq_false_iff.mpr fun high => notBefore (.inr ⟨at8, high⟩)
    obtain ⟨matched, first, -⟩ := decided ⟨at8, low⟩
    exact ⟨.inl at8, matched, first⟩
  · obtain ⟨-, matched, first, -⟩ := acknowledged at9
    exact ⟨.inr at9, matched, first⟩

/-- In `BE_RX` the device pulls SDA low for its acknowledge alone. -/
theorem rxClock_sda_low {s : State} (h : s.RxClock) (low : s.sdaOut = false) : s.bitcnt = 8 ∨ s.bitcnt = 9 := by
  obtain ⟨range, -, -, released, -⟩ := h
  refine (bitcnt_le_seven_or range).resolve_left fun bits => ?_
  rw [released (.inl bits)] at low
  cases low

/-- In `BE_RX` a first byte is pending until it is delivered. -/
theorem rxClock_firstPending {s : State} (h : s.RxClock) (first : s.firstPending = true) :
    s.bitcnt ≤ 7 ∨ (s.bitcnt = 8 ∧ (s.sclQ = true ∨ s.hold = .rxqFull)) := by
  obtain ⟨range, -, -, -, delivered, acknowledged⟩ := h
  rcases bitcnt_le_seven_or range with bits | at8 | at9
  · exact .inl bits
  · refine .inr ⟨at8, or_iff_not_imp_left.mpr fun notHigh => ?_⟩
    have arm := delivered ⟨at8, by simpa using notHigh⟩
    by_contra notHeld
    rw [if_neg notHeld, first] at arm
    cases arm.2
  · obtain ⟨-, -, notFirst⟩ := acknowledged at9
    rw [first] at notFirst
    cases notFirst

/-- In `BE_TX` the device pulls SDA low for a 0 bit alone, the one that the count and SCL say. -/
theorem txClock_sda_low {s : State} (h : s.TxClock) (low : s.sdaOut = false) :
    (s.sclQ = false ∧ s.bitcnt ≤ 7 ∧ bitToSend s.sr s.bitcnt.toNat = false) ∨
    (s.sclQ = true ∧ 1 ≤ s.bitcnt ∧ s.bitcnt ≤ 8 ∧ bitToSend s.sr (s.bitcnt.toNat - 1) = false) := by
  obtain ⟨range, -, -, -, zeroLow, next, current, released8, released9⟩ := h
  have notReleased (released : s.sdaOut = true) : False := by rw [released] at low; cases low
  have range8 : s.bitcnt ≤ 8 := by
    have not9 : s.bitcnt ≠ 9 := fun at9 => notReleased (released9 at9).2
    generalize s.bitcnt = b at range not9
    revert b; decide
  cases q : s.sclQ with
  | false =>
    have bits : s.bitcnt ≤ 7 :=
      (bitcnt_le_seven_or range).resolve_right fun late => notReleased <|
        late.elim (fun at8 => released8 ⟨at8, q⟩) (fun at9 => (released9 at9).2)
    have driven := next ⟨bits, q⟩
    split_ifs at driven
    · exact (notReleased driven).elim
    · exact .inl ⟨rfl, bits, driven.symm.trans low⟩
  | true =>
    have counted : 1 ≤ s.bitcnt := by
      have not0 : s.bitcnt ≠ 0 := fun at0 => by rw [zeroLow at0] at q; cases q
      generalize s.bitcnt = b at not0
      revert b; decide
    exact .inr ⟨rfl, counted, range8, (current ⟨counted, range8, q⟩).symm.trans low⟩

/-- The bounds of the outputs, by the state of the engine. -/
theorem outputsBounded_of_engineInv {s : State} (h : s.EngineInv) : s.OutputsBounded := by
  obtain ⟨⟨⟨idle, wait, addr, rx, tx⟩, -, sclHeld, -⟩, -⟩ := h
  refine ⟨fun low => ?_, fun quiet => ?_, sclHeld, fun first => ?_⟩
  · cases hb : s.be with
    | idle => rw [(idle hb).2.2] at low; cases low
    | wait => rw [(wait hb).2] at low; cases low
    | addr =>
      obtain ⟨count, matched, -⟩ := addrClock_decided (addr hb) (.inl low)
      exact .inl ⟨rfl, count, matched⟩
    | rx => exact .inr (.inl ⟨rfl, rxClock_sda_low (rx hb) low⟩)
    | tx =>
      rcases txClock_sda_low (tx hb) low with bit | bit
      · exact .inr (.inr (.inl ⟨rfl, bit⟩))
      · exact .inr (.inr (.inr ⟨rfl, bit⟩))
  · exact quiet.elim (fun hb => (idle hb).2.2) (fun hb => (wait hb).2)
  · cases hb : s.be with
    | idle => rw [(idle hb).2.1] at first; cases first
    | wait => rw [(wait hb).1] at first; cases first
    | addr =>
      obtain ⟨count, matched, write⟩ := addrClock_decided (addr hb) (.inr first)
      exact .inl ⟨rfl, count, matched, by simpa [first] using write⟩
    | rx => exact .inr ⟨rfl, rxClock_firstPending (rx hb) first⟩
    | tx =>
      obtain ⟨-, -, -, notFirst, -⟩ := tx hb
      rw [notFirst] at first
      cases first

/-- Settles O44: the bounds follow from the invariant, which the operation keeps (O50). -/
theorem engineInvariantBoundsTheOutputs : Obligations.EngineInvariantBoundsTheOutputs :=
  ⟨fun _ => outputsBounded_of_engineInv,
    fun _ _ _ own _ h e => outputsBounded_of_engineInv (exec_keeps_engineInv own h e)⟩

end Sys2Proof.Machine
end

section
/-! `SAMPLE` and its line code (44_byte_engine.md R172, R200): O41, O57. -/

namespace Sys2Proof.Machine

/-- Steps 3 and 4 of `SAMPLE` with the AND of the drives written out. -/
theorem sampled_eq (sclC sdaC : Bool) (s : State) :
    sampled sclC sdaC s =
      { s with sclQ := (sclC && s.sclOut), sdaQ := (sdaC && s.sdaOut),
               expect := (if s.sclQ && !(sclC && s.sclOut) then .sclLow
                          else if sclC && !(sclC && s.sclOut) then .kept sdaC else .anything),
               sclOut := (if s.hold = .release then true else s.sclOut),
               hold := (if s.hold = .release then .none else s.hold) } := by
  by_cases released : s.hold = .release
  · rw [sampled_of_release released, if_pos released, if_pos released]; rfl
  · rw [sampled_of_no_release released, if_neg released, if_neg released]; rfl

theorem exec_sample_refused {sclC sdaC : Bool} {s : State} (unsound : ¬ SampleSound sclC sdaC s) :
    ∃ r : Refusal, exec (.sample sclC sdaC) s = .refused r := by
  obtain ⟨r, -, refused⟩ := exec_sample_of_breach unsound
  exact ⟨r, refused⟩

/-- Settles O41: a sample inside the line rules is the row of its code on the state `sampled`, and any other is refused
by the first line rule it breaks. -/
theorem sampleRunsItsLineCode : Obligations.SampleRunsItsLineCode := by
  unfold Obligations.SampleRunsItsLineCode
  refine fun s sclC sdaC cursor => ⟨fun sound => ?_, exec_sample_refused, exec_sample_of_two_edges⟩
  obtain ⟨t, e⟩ := exec_sample_completes cursor sound
  obtain ⟨-, sclQ, sdaQ⟩ := exec_sample_notes e
  refine ⟨t, e, ?_, sclQ, sdaQ⟩
  rw [← sampled_eq, ← exec_sample_of_sound sound, e]

/-- 44_byte_engine.md R200 W2. -/
theorem expectAfter_of_fall {sclC : Bool} (sdaC : Bool) {s : State} (was : s.sclQ = true)
    (low : (sclC && s.sclOut) = false) : expectAfter sclC sdaC s = .sclLow := by
  simp [expectAfter, wiredAnd, was, low]

/-- 44_byte_engine.md R200 W5: the controller lets SCL go and the device holds it. -/
theorem expectAfter_of_held (sdaC : Bool) {s : State} (was : s.sclQ = false) (low : s.sclOut = false) :
    expectAfter true sdaC s = .kept sdaC := by
  simp [expectAfter, wiredAnd, was, low]

/-- Settles O57: each input breaks one of the line rules that `SampleSound` lists. In the second clause SCL was low
before the sample too, since the device starts a hold only then. -/
theorem inputOutsideTheLineRulesIsRefused : Obligations.InputOutsideTheLineRulesIsRefused := by
  unfold Obligations.InputOutsideTheLineRulesIsRefused
  refine ⟨fun s t c d h e => ?_, fun s sclOut sdaOut => ?_, fun s be one eight sclQ sdaOut => ?_⟩
  · obtain ⟨expects, sclQ, -⟩ := exec_sample_notes e
    refine ⟨fun was low d' => ?_, fun released low c' d' moved => ?_⟩
    · have bound : t.expect = .sclLow := expects.trans (expectAfter_of_fall d was (sclQ.symm.trans low))
      refine exec_sample_refused fun ⟨_, _, keepsLow, _⟩ => ?_
      cases keepsLow bound
    · subst released
      have held : s.sclOut = false := sclQ.symm.trans low
      have was : s.sclQ = false := Bool.eq_false_iff.mpr fun high =>
        h.1.2.2.1.mp held (hold_none_of_driveInv h.1 (.inl high))
      have bound : t.expect = .kept d := expects.trans (expectAfter_of_held d was held)
      refine exec_sample_refused fun ⟨_, _, _, honoured, _⟩ => ?_
      obtain ⟨rfl, rfl⟩ := honoured d bound
      simp at moved
  · refine exec_sample_refused fun ⟨_, _, _, _, acknowledged, _⟩ => ?_
    cases acknowledged sclOut sdaOut
  · refine exec_sample_refused fun ⟨_, _, _, _, _, sent⟩ => ?_
    cases sent sclQ rfl sdaOut be one eight

end Sys2Proof.Machine
end

section
/-! The rows of the edges of SCL and the end of a hold, each by the state of the engine and the bit count
(44_byte_engine.md R173, R177 to R193, R198): O35 to O40, O42. -/

namespace Sys2Proof.Machine

/-! ### The arms of a falling edge -/

theorem exec_lcFall {i : Instr} (code : i = .lcFall1000 ∨ i = .lcFall1101) (s : State) :
    exec i s = answer (lcFall s) := by
  rcases code with rfl | rfl <;> rfl

theorem lcFall_nothing {s : State}
    (h : s.be = .idle ∨ s.be = .wait ∨ ((s.be = .addr ∨ s.be = .rx) ∧ s.bitcnt ≤ 7) ∨ (s.be = .tx ∧ s.bitcnt = 0)) :
    lcFall s = .ok s := by
  have before {b : BitVec 4} (bits : b ≤ 7) : b ≠ 8 ∧ b ≠ 9 := by revert b; decide
  unfold lcFall
  rcases h with be | be | ⟨be | be, bits⟩ | ⟨be, start⟩
  · rw [be]
  · rw [be]
  · simp only [be, before bits, if_false]
  · simp only [be, before bits, if_false]
  · simp [be, start]

theorem lcFall_addr_eight {s : State} (be : s.be = .addr) (count : s.bitcnt = 8) :
    lcFall s = .ok (addressDecision s) := by
  simp [lcFall, be, count]

theorem lcFall_addr_nine {s : State} (be : s.be = .addr) (count : s.bitcnt = 9) :
    lcFall s = .ok (endAddressAck s) := by
  simp [lcFall, be, count]

theorem lcFall_rx_eight {s : State} (be : s.be = .rx) (count : s.bitcnt = 8) : lcFall s = deliver s := by
  simp [lcFall, be, count]

theorem lcFall_rx_nine {s : State} (be : s.be = .rx) (count : s.bitcnt = 9) : lcFall s = .ok (endDataAck s) := by
  simp [lcFall, be, count]

theorem lcFall_tx_bit {s : State} (be : s.be = .tx) (bits : 1 ≤ s.bitcnt ∧ s.bitcnt ≤ 7) :
    lcFall s = .ok (driveNextBit s) := by
  simp only [lcFall, be, if_pos bits]

theorem lcFall_tx_eight {s : State} (be : s.be = .tx) (count : s.bitcnt = 8) : lcFall s = .ok (releaseForAck s) := by
  simp [lcFall, be, count]

theorem lcFall_tx_nine {s : State} (be : s.be = .tx) (count : s.bitcnt = 9) :
    lcFall s = .ok (afterControllerAck s) := by
  simp [lcFall, be, count]

/-- Settles O36: the codes without an edge answer the state, and the falling edges have no arm. -/
theorem codesWithNothingToDoChangeNothing : Obligations.CodesWithNothingToDoChangeNothing := by
  unfold Obligations.CodesWithNothingToDoChangeNothing
  refine fun s => ⟨rfl, rfl, rfl, rfl, rfl, rfl, fun h => ⟨?_, ?_⟩⟩
  · rw [exec_lcFall (.inl rfl), lcFall_nothing h, answer]
  · rw [exec_lcFall (.inr rfl), lcFall_nothing h, answer]

/-! ### The address decision -/

/-- The device answers to two address bytes, one for each direction (30_encoding.md R66, R67). -/
theorem answers_iff (b : Byte) : answers (addrField b) = true ↔ b = 0x08 ∨ b = 0x09 := by
  revert b; decide

theorem addressDecision_write {s : State} (h : s.sr = 0x08) : addressDecision s = addrW s := by
  unfold addressDecision
  rw [h, if_pos (by decide), if_neg (by decide)]

theorem addressDecision_read {s : State} (h : s.sr = 0x09) : addressDecision s = addrR s := by
  unfold addressDecision
  rw [h, if_pos (by decide), if_pos (by decide)]

theorem addressDecision_other {s : State} (notW : s.sr ≠ 0x08) (notR : s.sr ≠ 0x09) :
    addressDecision s = addrOther s := by
  unfold addressDecision
  rw [if_neg]
  rw [answers_iff]
  exact not_or.mpr ⟨notW, notR⟩

theorem addrOther_of_released {s : State} (h : s.sdaOut = true) : addrOther s = { s with be := .wait } := by
  rw [addrOther, ← h]

/-- Settles O35: the decision takes the class of the byte in `sr`. -/
theorem addressByteDecidesTheEngine : Obligations.AddressByteDecidesTheEngine := by
  unfold Obligations.AddressByteDecidesTheEngine
  refine fun s => ⟨rfl, rfl, fun addr rw released => congrArg _ (addrOther_of_released released),
    fun i code be count => ?_⟩
  rw [exec_lcFall code, lcFall_addr_eight be count, answer]
  refine ⟨fun write => congrArg _ (addressDecision_write write), fun read => congrArg _ (addressDecision_read read),
    fun notW notR released => ?_⟩
  rw [addressDecision_other notW notR, addrOther_of_released released]

/-! ### The rising edge -/

/-- 44_byte_engine.md R177 in the form of a shift. -/
theorem shiftIn_eq (sr : Byte) (sda : Bool) : shiftIn sr sda = (sr <<< 1) ||| (if sda then 1 else 0) := by
  revert sr sda; decide

theorem exec_lcRise {i : Instr} {sda : Bool}
    (code : (sda = false ∧ i = .lcRise0010) ∨ (sda = true ∧ i = .lcRise0111)) (s : State) :
    exec i s = .next (lcRise sda s) := by
  rcases code with ⟨rfl, rfl⟩ | ⟨rfl, rfl⟩ <;> rfl

theorem lcRise_data_bit {s : State} (sda : Bool) (be : s.be = .addr ∨ s.be = .rx) (bits : s.bitcnt ≤ 7) :
    lcRise sda s = { s with sr := shiftIn s.sr sda, bitcnt := s.bitcnt + 1 } := by
  unfold lcRise
  rcases be with be | be <;> simp only [be, if_pos bits]

theorem lcRise_data_ack {s : State} (sda : Bool) (be : s.be = .addr ∨ s.be = .rx) (count : s.bitcnt = 8) :
    lcRise sda s = { s with bitcnt := 9 } := by
  unfold lcRise
  rcases be with be | be <;> simp [be, count]

theorem lcRise_tx_bit {s : State} (sda : Bool) (be : s.be = .tx) (bits : s.bitcnt ≤ 7) :
    lcRise sda s = { s with bitcnt := s.bitcnt + 1 } := by
  simp only [lcRise, be, if_pos bits]

theorem lcRise_tx_ack {s : State} (sda : Bool) (be : s.be = .tx) (count : s.bitcnt = 8) :
    lcRise sda s = { s with nack := sda, bitcnt := 9 } := by
  simp [lcRise, be, count]

theorem lcRise_quiet {s : State} (sda : Bool) (be : s.be = .idle ∨ s.be = .wait) : lcRise sda s = s := by
  unfold lcRise
  rcases be with be | be <;> simp only [be]

/-- Settles O37: the arms of the rising edge. -/
theorem risingEdgeSamplesABit : Obligations.RisingEdgeSamplesABit := by
  unfold Obligations.RisingEdgeSamplesABit
  intro s sda i code
  rw [exec_lcRise code, ← shiftIn_eq]
  exact ⟨fun be bits => congrArg _ (lcRise_data_bit sda be bits),
    fun be count => congrArg _ (lcRise_data_ack sda be count), fun be bits => congrArg _ (lcRise_tx_bit sda be bits),
    fun be count => congrArg _ (lcRise_tx_ack sda be count), fun be => congrArg _ (lcRise_quiet sda be)⟩

/-! ### The next byte to send -/

theorem fetchToSend_of_bEvent {s : State} (hv : s.cfg.variant = .bEvent) :
    fetchToSend s = load (evByteReq s).1 (evByteReq s).2 := by
  simp only [fetchToSend, hv]

theorem fetchToSend_of_cons {s : State} {d : Byte} {rest : List Byte} (hv : s.cfg.variant = .aPolled)
    (hq : s.txq = d :: rest) : fetchToSend s = load d { s with txq := rest } := by
  simp only [fetchToSend, hv, hq]

theorem fetchToSend_of_nil {s : State} (hv : s.cfg.variant = .aPolled) (hq : s.txq = []) :
    fetchToSend s = holdTxqEmpty s := by
  simp only [fetchToSend, hv, hq]

/-- The byte request by itself shows its byte on the return port (44_byte_engine.md R190, log 10). -/
theorem exec_evByteReq_next {s : State} (hv : s.cfg.variant = .bEvent) :
    exec .evByteReq s = .next { (evByteReq s).2 with ret := .byte (evByteReq s).1 } :=
  (exec_evByteReq s).trans (onlyInB_eq hv _)

theorem endAddressAck_write {s : State} (h : s.rw = false) :
    endAddressAck s = { s with sdaOut := true, bitcnt := 0, be := .rx } := by
  simp [endAddressAck, h]

theorem endAddressAck_read {s : State} (h : s.rw = true) :
    endAddressAck s = fetchToSend { s with be := .tx, bitcnt := 0, sdaOut := true } := by
  simp [endAddressAck, h]

/-- Settles O38: the arms of the fetch. The byte request of the rule meets the engine already in `BE_TX`, which it does
not see. -/
theorem addressAckLeadsToDataOrFetch : Obligations.AddressAckLeadsToDataOrFetch := by
  unfold Obligations.AddressAckLeadsToDataOrFetch
  intro s i code be count
  rw [exec_lcFall code, lcFall_addr_nine be count, answer]
  refine ⟨fun write => congrArg _ (endAddressAck_write write), fun read hv => ?_, fun d rest read hv hq => ?_,
    fun read hv hq => ?_⟩
  · refine ⟨_, _, exec_evByteReq_next hv, rfl, ?_⟩
    obtain ⟨-, ret, -⟩ := evByteReq_kept s
    rw [endAddressAck_read read, fetchToSend_of_bEvent (by exact hv), evByteReq_engine, load, ← ret]
  · rw [endAddressAck_read read, fetchToSend_of_cons (by exact hv) (by exact hq), load]
  · rw [endAddressAck_read read, fetchToSend_of_nil (by exact hv) (by exact hq), holdTxqEmpty]

/-! ### The delivery of a byte -/

theorem rxqHasRoom_iff (s : State) : rxqHasRoom s = true ↔ s.rxq.length < s.cfg.rxqDepth :=
  decide_eq_true_iff

theorem deliver_of_evByteRx {s t : State} (hv : s.cfg.variant = .bEvent)
    (e : evByteRx s.sr s.firstPending s = .ok t) :
    deliver s = .ok { t with firstPending := false, sdaOut := false } := by
  simp only [deliver, hv, e]

theorem deliver_of_room {s : State} (hv : s.cfg.variant = .aPolled) (room : s.rxq.length < s.cfg.rxqDepth) :
    deliver s = .ok (acceptByte s) := by
  simp only [deliver, hv, if_pos ((rxqHasRoom_iff s).mpr room)]

theorem deliver_of_full {s : State} (hv : s.cfg.variant = .aPolled) (full : s.cfg.rxqDepth ≤ s.rxq.length) :
    deliver s = .ok (holdRxqFull s) := by
  simp only [deliver, hv, if_neg (mt (rxqHasRoom_iff s).mp (Nat.not_lt.mpr full))]

/-- Settles O39: the arms of the delivery; the event completes since its cursor is in range. -/
theorem fallingEdgeDeliversTheByte : Obligations.FallingEdgeDeliversTheByte := by
  unfold Obligations.FallingEdgeDeliversTheByte
  intro s i code be
  rw [exec_lcFall code]
  refine ⟨fun count hv cursor => ?_, fun count hv room => ?_, fun count hv full => ?_, fun count => ?_⟩
  · obtain ⟨t, e⟩ := evByteRx_completes cursor s.sr s.firstPending
    refine ⟨t, ?_, ?_⟩
    · rw [exec_evByteRx hv, e, answer]
    · rw [lcFall_rx_eight be count, deliver_of_evByteRx hv e, answer]
  · rw [lcFall_rx_eight be count, deliver_of_room hv room, answer, acceptByte, pushRxq]
  · rw [lcFall_rx_eight be count, deliver_of_full hv full, answer, holdRxqFull]
  · rw [lcFall_rx_nine be count, answer, endDataAck]

/-! ### The bits of a byte that is sent -/

theorem afterControllerAck_of_nack {s : State} (h : s.nack = true) :
    afterControllerAck s = { s with be := .wait, sdaOut := true, bitcnt := 0 } :=
  if_pos h

theorem afterControllerAck_of_ack {s : State} (h : s.nack = false) : afterControllerAck s = fetchToSend s :=
  if_neg (by simp [h])

/-- Settles O40: the arms of sending, and of the fetch after an ACK. -/
theorem fallingEdgeSendsTheByte : Obligations.FallingEdgeSendsTheByte := by
  unfold Obligations.FallingEdgeSendsTheByte
  intro s i code be
  rw [exec_lcFall code]
  refine ⟨fun k one seven count => ?_, fun count => ?_, fun count nack => ?_, fun count ack hv => ?_,
    fun d rest count ack hv hq => ?_, fun count ack hv hq => ?_⟩
  · have bits : 1 ≤ s.bitcnt ∧ s.bitcnt ≤ 7 := by rw [count]; interval_cases k <;> decide
    have value : s.bitcnt.toNat = k := by rw [count, BitVec.toNat_ofNat]; omega
    rw [lcFall_tx_bit be bits, answer, driveNextBit, bitToSend, value]
  · rw [lcFall_tx_eight be count, answer, releaseForAck]
  · rw [lcFall_tx_nine be count, answer, afterControllerAck_of_nack nack]
  · refine ⟨_, _, exec_evByteReq_next hv, rfl, ?_⟩
    obtain ⟨-, ret, -⟩ := evByteReq_kept s
    rw [lcFall_tx_nine be count, answer, afterControllerAck_of_ack ack, fetchToSend_of_bEvent hv, load, ← ret]
  · rw [lcFall_tx_nine be count, answer, afterControllerAck_of_ack ack, fetchToSend_of_cons hv hq, load]
  · rw [lcFall_tx_nine be count, answer, afterControllerAck_of_ack ack, fetchToSend_of_nil hv hq, holdTxqEmpty]

/-! ### The end of a hold -/

theorem exec_beResume {s : State} (hv : s.cfg.variant = .aPolled) : exec .beResume s = .next (beResume s) :=
  onlyInA_eq hv _

theorem beResume_of_room {s : State} (hold : s.hold = .rxqFull) (room : s.rxq.length < s.cfg.rxqDepth) :
    beResume s = { acceptByte s with hold := .release } := by
  simp only [beResume, hold, if_pos ((rxqHasRoom_iff s).mpr room)]

theorem beResume_of_cons {s : State} {d : Byte} {rest : List Byte} (hold : s.hold = .txqEmpty)
    (hq : s.txq = d :: rest) : beResume s = { load d { s with txq := rest } with hold := .release } := by
  simp only [beResume, hold, hq]

theorem beResume_of_wait {s : State} (noRoom : ¬ (s.hold = .rxqFull ∧ s.rxq.length < s.cfg.rxqDepth))
    (noByte : ¬ (s.hold = .txqEmpty ∧ s.txq ≠ [])) : beResume s = s := by
  unfold beResume
  cases hold : s.hold with
  | none | release => rfl
  | rxqFull => exact if_neg fun room => noRoom ⟨hold, (rxqHasRoom_iff s).mp room⟩
  | txqEmpty =>
    have empty : s.txq = [] := by_contra fun byte => noByte ⟨hold, byte⟩
    rw [empty]

/-- Settles O42: the arms of `BE_RESUME`. -/
theorem resumeEndsAHold : Obligations.ResumeEndsAHold := by
  unfold Obligations.ResumeEndsAHold
  intro s hv
  rw [exec_beResume hv]
  exact ⟨fun hold room => congrArg _ (beResume_of_room hold room),
    fun d rest hold hq => congrArg _ (beResume_of_cons hold hq),
    fun noRoom noByte => congrArg _ (beResume_of_wait noRoom noByte)⟩

end Sys2Proof.Machine
end

section
/-! A byte clocked in or out, clock by clock (44_byte_engine.md R170, R203): O45, O46, O47. -/

namespace Sys2Proof.Machine

/-- `s` with `k` bits of a byte clocked, SCL low and let go by the device, before the next clock. What is expected of
the next sample is no more than that SCL stays low (log 16). -/
structure State.BeforeClock (be : EngineState) (k : Nat) (s : State) : Prop where
  be : s.be = be
  count : s.bitcnt = BitVec.ofNat 4 k
  sclQ : s.sclQ = false
  sclOut : s.sclOut = true
  hold : s.hold = .none
  expect : s.expect = .sclLow ∨ s.expect = .anything

/-! ### A byte clocked in -/

/-- `s` after some data bits, each with its clock: they are in the shift register. The level of SDA and what is
expected of the next sample are given, since the next clock overwrites both. -/
def receivedBits (bits : List Bool) (sda : Bool) (e : Expect) (s : State) : State :=
  { s with sr := bits.foldl shiftIn s.sr, bitcnt := BitVec.ofNat 4 bits.length, sdaQ := sda, expect := e }

/-- The clocks of fewer than eight data bits. -/
theorem runAll_data_bits {s : State} (h : s.BeforeClock .rx 0) (released : s.sdaOut = true) (bits : List Bool)
    (few : bits.length ≤ 7) :
    ∃ sda e, (e = .sclLow ∨ e = .anything) ∧
      runAll (bits.flatMap clockSamples) s = .next (receivedBits bits sda e s) := by
  induction bits using List.reverseRecOn with
  | nil => exact ⟨s.sdaQ, s.expect, h.expect, by rw [receivedBits, List.length_nil, ← h.count]; rfl⟩
  | append_singleton bits b ih =>
    rw [List.length_append, List.length_singleton] at few
    obtain ⟨sda, e, bound, run⟩ := ih (by omega)
    have clock := runAll_clock_rx b (receivedBits bits sda e s) bits.length (by omega) h.be rfl h.sclQ released h.sclOut
      h.hold bound
    refine ⟨b, .sclLow, .inl rfl, ?_⟩
    rw [List.flatMap_append, List.flatMap_singleton, runAll_append _ _ _ _ run, clock, receivedBits, receivedBits,
      List.foldl_append, List.length_append]
    rfl

/-- The first seven bits of a byte, in the order of the bus. -/
def firstSevenBits (x : Byte) : List Bool :=
  [x.getLsbD 7, x.getLsbD 6, x.getLsbD 5, x.getLsbD 4, x.getLsbD 3, x.getLsbD 2, x.getLsbD 1]

theorem writeByteSamples_eq (x : Byte) :
    writeByteSamples x =
      (firstSevenBits x).flatMap clockSamples ++ (clockSamples (x.getLsbD 0) ++ clockSamples true) := rfl

theorem shiftIn_firstSevenBits (r x : Byte) :
    shiftIn ((firstSevenBits x).foldl shiftIn r) (x.getLsbD 0) = x :=
  shiftIn_eight r x

/-- `s` with the eight bits of `x` clocked in, as its delivery finds it. -/
def receivedByte (x : Byte) (s : State) : State :=
  { s with sr := x, bitcnt := 8, sdaQ := x.getLsbD 0, expect := .sclLow }

/-- The samples of a written byte are its delivery and the clock of the acknowledge. -/
theorem runAll_writeByteSamples {s u : State} {x : Byte} (h : s.BeforeClock .rx 0) (released : s.sdaOut = true)
    (delivered : deliver (receivedByte x s) = .ok u) (hu : u.BeforeClock .rx 8) (acknowledged : u.sdaOut = false) :
    runAll (writeByteSamples x) s =
      .next { u with sdaOut := true, bitcnt := 0, sdaQ := false, expect := .sclLow } := by
  obtain ⟨sda, e, bound, seven⟩ := runAll_data_bits h released (firstSevenBits x) (Nat.le_refl 7)
  have eighth := runAll_clock_rx_eighth (x.getLsbD 0) (receivedBits (firstSevenBits x) sda e s) h.be rfl h.sclQ released
    h.sclOut h.hold bound
  rw [receivedBits, shiftIn_firstSevenBits, ← receivedBits] at eighth
  rw [writeByteSamples_eq, runAll_append _ _ _ _ seven]
  exact (runAll_append _ _ _ _ (eighth.trans (congrArg answer delivered))).trans
    (runAll_clock_rx_ack u hu.be hu.count hu.sclQ acknowledged hu.sclOut hu.hold hu.expect)

/-- A received byte does not look at the engine: its event is the same with the byte's clocks behind it. -/
theorem evByteRx_receivedByte {d : Byte} {first : Bool} {s t : State} (e : evByteRx d first s = .ok t) (x : Byte) :
    evByteRx d first (receivedByte x s) = .ok (receivedByte x t) := by
  have cursor : cursorFor first (receivedByte x s) = cursorFor first s := rfl
  rcases evByteRx_cases d first s with ⟨small, arm⟩ | ⟨ninth, arm⟩ | ⟨tenth, arm⟩ | ⟨_, arm⟩ <;>
    rw [arm] at e <;> cases e
  · have below : cursorFor first (receivedByte x s) < 8 := by rw [cursor, BitVec.lt_def]; exact small
    rw [evByteRx_store d first _ below]; rfl
  · have selector : (s.req.set 8 d)[0] = s.req[0] := Vector.getElem_set_ne _ _ (by decide)
    rw [evByteRx_ninth d first _ (cursor.trans ninth), compose_eq, ← selector]; rfl
  · rw [evByteRx_tenth d first _ (cursor.trans tenth)]; rfl

/-- Settles O45: the delivery at the eighth bit is the event, and the acknowledge clock leaves what it wrote. -/
theorem byteClockedInIsOneEvent : Obligations.ByteClockedInIsOneEvent := by
  unfold Obligations.ByteClockedInIsOneEvent
  intro s t x hv be count sclQ released sclOut hold bound e
  have event := answer_next ((exec_evByteRx hv x s.firstPending).symm.trans e)
  obtain ⟨sameBe, sameCount, -, -, -, -, sameSclQ, -, sameSda, sameScl, sameHold⟩ := evByteRx_same event
  have delivered := deliver_of_evByteRx (s := receivedByte x s) hv (evByteRx_receivedByte event x)
  rw [runAll_writeByteSamples ⟨be, count, sclQ, sclOut, hold, bound⟩ released delivered
    ⟨sameBe.trans be, rfl, sameSclQ.trans sclQ, sameScl.trans sclOut, sameHold.trans hold, .inl rfl⟩ rfl]
  simp only [receivedByte, sameCount, count, sameSda, released]

/-- Settles O46: the delivery at the eighth bit is the push. -/
theorem byteClockedInIsOnePush : Obligations.ByteClockedInIsOnePush := by
  unfold Obligations.ByteClockedInIsOnePush
  intro s x hv be count sclQ released sclOut hold bound room
  have delivered := deliver_of_room (s := receivedByte x s) hv room
  rw [runAll_writeByteSamples ⟨be, count, sclQ, sclOut, hold, bound⟩ released delivered
    ⟨be, rfl, sclQ, sclOut, hold, .inl rfl⟩ rfl]
  simp only [acceptByte, pushRxq, receivedByte, count, released]

/-! ### A byte clocked out -/

/-- `s` after the clocks of `n` bits of the byte in `sr`: the next bit is driven, or SDA let go after the eighth. -/
def sentBits (n : Nat) (sda : Bool) (e : Expect) (s : State) : State :=
  { s with bitcnt := BitVec.ofNat 4 n, sdaOut := (if n = 8 then true else bitToSend s.sr n), sdaQ := sda, expect := e }

theorem sentBits_beforeClock {s : State} (h : s.BeforeClock .tx 0) (n : Nat) (sda : Bool) {e : Expect}
    (bound : e = .sclLow ∨ e = .anything) : (sentBits n sda e s).BeforeClock .tx n :=
  ⟨h.be, rfl, h.sclQ, h.sclOut, h.hold, bound⟩

/-- The clocks of the bits of a byte, with SDA let go by the controller. -/
theorem runAll_sent_bits {s : State} (h : s.BeforeClock .tx 0) (first : s.sdaOut = s.sr.getLsbD 7) {n : Nat}
    (few : n ≤ 8) :
    ∃ sda e, (e = .sclLow ∨ e = .anything) ∧
      runAll (List.replicate n (clockSamples true)).flatten s = .next (sentBits n sda e s) := by
  induction n with
  | zero =>
    refine ⟨s.sdaQ, s.expect, h.expect, ?_⟩
    rw [sentBits, ← h.count, if_neg (by decide), bitToSend, Nat.sub_zero, ← first]
    rfl
  | succ n ih =>
    obtain ⟨sda, e, bound, run⟩ := ih (by omega)
    have before := sentBits_beforeClock h n sda bound
    have clock := runAll_clock_tx _ n (by omega) before.be before.count before.sclQ before.sclOut before.hold
      before.expect
    refine ⟨(sentBits n sda e s).sdaOut, .sclLow, .inl rfl, ?_⟩
    rw [List.replicate_succ', List.flatten_append, List.flatten_singleton, runAll_append _ _ _ _ run, clock]
    simp only [sentBits, Nat.reduceEqDiff]

/-- The first two samples of a clock with SDA let go by the controller: SCL is high, and SDA is what the device
drives. -/
theorem runAll_rise {be : EngineState} {k : Nat} {s : State} (h : s.BeforeClock be k) :
    ∃ t, runAll [.sample false true, .sample true true] s = .next t ∧ t.sclQ = true ∧ t.sdaQ = s.sdaOut := by
  have lowSound : SampleSound false true s := by
    refine ⟨.inl h.sclQ.symm, ?_, fun _ => rfl, ?_, fun _ _ => rfl, fun _ _ _ _ _ _ => rfl⟩ <;>
      rcases h.expect with e | e <;> simp [e]
  have low := exec_sample_low lowSound h.sclQ rfl
  rw [sampled_of_no_release (by simp [h.hold])] at low
  obtain ⟨-, sclLow, sda⟩ := exec_sample_notes low
  have free : expectAfter false true s = .anything := by simp [expectAfter, wiredAnd, h.sclQ]
  have highSound : SampleSound true true (rememberLines false true s) := by
    refine ⟨.inr sda.symm, ?_, ?_, ?_, fun _ _ => rfl, fun _ _ _ _ _ _ => rfl⟩ <;> simp [free]
  have high := exec_sample_rise highSound sclLow (by exact h.sclOut)
  obtain ⟨-, sclHigh, seen⟩ := exec_sample_notes high
  exact ⟨_, (runAll_cons_of_exec low _).trans (runAll_cons_of_exec high []), sclHigh.trans h.sclOut, seen⟩

/-- The ninth clock with a NACK ends sending (44_byte_engine.md R178, R193). -/
theorem runAll_clock_nack {s : State} (h : s.BeforeClock .tx 8) (released : s.sdaOut = true) :
    runAll (clockSamples true) s = .next
      { s with be := .wait, nack := true, bitcnt := 0, sdaOut := true, sdaQ := true, expect := .sclLow } := by
  rw [runAll_clock true s h.sclQ h.sclOut h.hold h.expect (fun _ => rfl), released, Bool.and_self,
    lcRise_tx_ack (s := atHigh true s) true h.be h.count, lcFall_tx_nine (by exact h.be) rfl, answer,
    afterControllerAck_of_nack rfl]
  simp only [atHigh, released, h.sclQ, Bool.and_self]

/-- Settles O47: the bit driven after `k` clocks is seen at the next rising edge, and after eight the NACK. -/
theorem byteClockedOutIsTheByte : Obligations.ByteClockedOutIsTheByte := by
  unfold Obligations.ByteClockedOutIsTheByte
  intro s be count sclQ first sclOut hold bound
  have start : s.BeforeClock .tx 0 := ⟨be, count, sclQ, sclOut, hold, bound⟩
  refine ⟨fun k => ?_, ?_⟩
  · obtain ⟨sda, e, bound', sent⟩ := runAll_sent_bits start first (n := k.val) (by omega)
    obtain ⟨t, rise, high, seen⟩ := runAll_rise (sentBits_beforeClock start k.val sda bound')
    exact ⟨t, (runAll_append _ _ _ _ sent).trans rise, high, seen.trans (if_neg (by omega))⟩
  · obtain ⟨sda, e, bound', sent⟩ := runAll_sent_bits start first (Nat.le_refl 8)
    rw [readByteSamples, runAll_append _ _ _ _ sent, runAll_clock_nack (sentBits_beforeClock start 8 sda bound') rfl]
    rfl

end Sys2Proof.Machine
end

section
/-! `RESET` and the first sample after it (70_reset_and_hazards.md R236, R238): O10, O58. -/

namespace Sys2Proof.Machine

theorem exec_reset (s : State) : exec .reset s = .next (resetState s) := rfl

/-- Settles O10: every field as `resetState` writes it. -/
theorem resetInstallsTheTable : Obligations.ResetInstallsTheTable := by
  unfold Obligations.ResetInstallsTheTable
  intro s
  refine ⟨resetState s, exec_reset s, ?_⟩
  simp only [resetState, and_self]

/-- A sample in which both lines stay as they were does no more than remember them. -/
theorem exec_sample_of_lines_kept {sclC sdaC : Bool} {s : State} (w : SampleSound sclC sdaC s)
    (scl : s.sclQ = (sclC && s.sclOut)) (sda : s.sdaQ = (sdaC && s.sdaOut)) :
    exec (.sample sclC sdaC) s = .next (sampled sclC sdaC s) := by
  rcases exec_sample_cases w with
    ⟨-, -, nop⟩ | ⟨low, high, -⟩ | ⟨high, low, -⟩ | ⟨-, -, high, low, -⟩ | ⟨-, -, low, high, -⟩
  · exact nop
  · exact absurd (low.symm.trans (scl.trans high)) (by decide)
  · exact absurd (high.symm.trans (scl.trans low)) (by decide)
  · exact absurd (high.symm.trans (sda.trans low)) (by decide)
  · exact absurd (low.symm.trans (sda.trans high)) (by decide)

/-- After `RESET` the device drives neither line, so the one rule that binds is that of the idle bus. -/
theorem sampleSound_resetState_iff (s : State) (sclC sdaC : Bool) :
    SampleSound sclC sdaC (resetState s) ↔ sclC = true ∧ sdaC = true := by
  constructor
  · rintro ⟨-, idle, -⟩
    simpa [resetState] using idle rfl
  · rintro ⟨rfl, rfl⟩
    exact ⟨.inl rfl, fun _ => ⟨rfl, rfl⟩, nofun, nofun, fun _ _ => rfl, fun _ _ _ _ _ _ => rfl⟩

/-- The first sample of an idle bus: the lines are as `RESET` left them, and only `expect` moves. -/
theorem exec_sample_idle_resetState (s : State) :
    exec (.sample true true) (resetState s) = .next { resetState s with expect := .anything } := by
  have sound : SampleSound true true (resetState s) := (sampleSound_resetState_iff s true true).mpr ⟨rfl, rfl⟩
  rw [exec_sample_of_lines_kept sound rfl rfl, sampled_of_no_release (by simp [resetState]),
    rememberLines, expectAfter_eq_anything true rfl]
  rfl

/-- Settles O58: with a line driven low the first sample breaks the rule of the idle bus. -/
theorem resetAwaitsAnIdleBus : Obligations.ResetAwaitsAnIdleBus := by
  unfold Obligations.ResetAwaitsAnIdleBus
  intro s
  refine ⟨resetState s, exec_reset s, exec_sample_idle_resetState s,
    fun c d low => exec_sample_refused fun sound => ?_⟩
  obtain ⟨rfl, rfl⟩ := (sampleSound_resetState_iff s c d).mp sound
  simp at low

end Sys2Proof.Machine
end
